-- ==== Sys2Proof/Word.lean ====
section
/-!
DEFINITION. The widths of the values the block moves: a register value (16 bits), a byte on the wire (8 bits),
a temperature code (12 bits) (spec/00_scope.md R5, spec/40_codec.md R110).
-/

namespace Sys2Proof

/-- A register value: `REG_W` = 16 bits (R5). -/
abbrev Word := BitVec 16

/-- One byte of a bus transaction (R54). -/
abbrev Byte := BitVec 8

/-- The two's-complement temperature code: `CODE_W` = 12 bits (R5). -/
abbrev Code := BitVec 12

/-- A device bus address: `DEV_ADDR_W` = 7 bits (R5, R23). -/
abbrev DevAddr := BitVec 7

end Sys2Proof
end

