-- ==== Sys2Proof/Config.lean ====
section
/-!
DEFINITION. The parameters that the spec leaves open (spec/00_scope.md R6), the types in which they are expressed, and the
free values: constants with no body, so that no proof can know what they are.
-/

namespace Sys2Proof

/-- `BUSREF`, a bus reference: R6 leaves it open as any type with decidable equality. The block never inspects it (R22).
DESIGN CHOICE: a wrapped natural number (log 2). -/
structure BusRef where
  id : Nat
  deriving DecidableEq, Repr, Inhabited

/-- `DEVIDX`, the type of INIT's `deviceIndex`: R6 leaves it open, and no rule reads a value of it (D14).
DESIGN CHOICE: a wrapped natural number (log 2). -/
structure DevIdx where
  id : Nat
  deriving DecidableEq, Repr, Inhabited

/-- A register address: an enumeration of the four that the block emits (R51, R52). -/
inductive RegAddr where
  | temperature    -- 0x00
  | configuration  -- 0x01
  | tLow           -- 0x02
  | tHigh          -- 0x03
  deriving DecidableEq, Repr, Inhabited

/-- What a `BusRead` of two bytes answers (R57). -/
inductive ReadAnswer where
  | ok (b0 b1 : Byte)
  | error
  deriving DecidableEq, Repr, Inhabited

/-- What a `BusWrite` answers (R59). -/
inductive WriteAnswer where
  | ok
  | error
  deriving DecidableEq, Repr, Inhabited

/-- Which of the two devices of R58 stands behind the bus: the normative unconstrained oracle, or the refinement
`DEV_STORE`, which a claim must name as a premise (log 5). -/
inductive Device where
  | oracle
  | devStore
  deriving DecidableEq, Repr, Inhabited

/-- Free value: `H.bus` after the `n`-th reset of the block, until an INIT (R40: unconstrained; U13). DESIGN CHOICE (log 3). -/
opaque Config.busReset : Nat → BusRef

/-- Free value: `H.addr` after the `n`-th reset of the block, until an INIT (R40: unconstrained, and not 0x48; U13).
DESIGN CHOICE (log 3). -/
opaque Config.addrReset : Nat → DevAddr

/-- The open parameter `DEV_RESET`: the four device registers before the first write (R41, U9). DESIGN CHOICE (log 4). -/
opaque Config.devReset : RegAddr → Word

/-- Free value: what the collaborator answers to an unscripted read, the `n`-th free answer of the run (R58, U5; log 6). -/
opaque Config.freeRead : BusRef → DevAddr → RegAddr → Nat → ReadAnswer

/-- Free value: what the collaborator answers to an unscripted write, the `n`-th free answer of the run (R59; log 6). -/
opaque Config.freeWrite : BusRef → DevAddr → RegAddr → Word → Nat → WriteAnswer

/-- Free value: what the addressed register holds after an unscripted write that answered `error` (R59, U4; log 9). -/
opaque Config.freeLeft : BusRef → DevAddr → RegAddr → Word → Nat → Word

end Sys2Proof
end

