-- ==== Sys2Proof/Syntax.lean ====
section
/-!
DEFINITION. The operations of the block (spec/30_encoding.md R94), the request and response ports that carry them (R95),
the enumerations of the Configuration register's fields (R83) and the result codes (spec/60_exceptions.md R170).
-/

namespace Sys2Proof

/-! ## Enumerations of the read/write fields (R83) -/

/-- Conversion rate (R29). -/
inductive ConvRate where
  | hz0_25 | hz1 | hz4 | hz16
  deriving DecidableEq, Repr

/-- Hysteresis steps of 0, 1, 2 and 4 degrees (R34). -/
inductive Hysteresis where
  | c0 | c1 | c2 | c4
  deriving DecidableEq, Repr

/-- Functional mode (R32). -/
inductive FuncMode where
  | shutdown | oneShot | continuous
  deriving DecidableEq, Repr

/-- Thermostat mode (R31). -/
inductive ThermMode where
  | comparator | interrupt
  deriving DecidableEq, Repr

/-- Active level of the alert pin (R33). -/
inductive Polarity where
  | activeLow | activeHigh
  deriving DecidableEq, Repr

/-- The seven named fields of the Configuration register (R28). -/
inductive Field where
  | cr | fh | fl | tm | fm | pol | hyst
  deriving DecidableEq, Repr

/-! ## Operations -/

/-- Whether a request passes the handle or DOC0's null reference (R21, D6). -/
inductive HandleRef where
  | handle
  | null
  deriving DecidableEq, Repr

/-- The 22 operations of R94. A Celsius operand is its exact value, a rational (R11, D1). -/
inductive Instr where
  | encode (x : ℚ)
  | decode (r : Word)
  | maskedWrite (cur newv mask : Word)
  | rangeCheck (x : ℚ)
  | init (h : HandleRef) (bus : Option BusRef) (devidx : DevIdx) (addr : DevAddr)
  | getTemp (h : HandleRef)
  | getThigh (h : HandleRef)
  | getTlow (h : HandleRef)
  | setThigh (h : HandleRef) (x : ℚ)
  | setTlow (h : HandleRef) (x : ℚ)
  | getCr (h : HandleRef)
  | getHyst (h : HandleRef)
  | getFm (h : HandleRef)
  | getTm (h : HandleRef)
  | getPol (h : HandleRef)
  | setCr (h : HandleRef) (e : ConvRate)
  | setHyst (h : HandleRef) (e : Hysteresis)
  | setFm (h : HandleRef) (e : FuncMode)
  | setTm (h : HandleRef) (e : ThermMode)
  | setPol (h : HandleRef) (e : Polarity)
  | setcThigh (h : HandleRef) (x : ℚ)
  | setcTlow (h : HandleRef) (x : ℚ)
  deriving DecidableEq, Repr

/-! ## Request ports (R95) -/

/-- The Celsius port: an exact value, or one of the operands that have none (R114, U1; log 1). -/
inductive CelsiusPort where
  | value (q : ℚ)
  | nan
  | posInf
  | negInf
  deriving DecidableEq, Repr

/-- The ports of an operation request, in the order of R95's table (log 10). -/
structure Request where
  op     : BitVec 5
  hnull  : Bool
  x      : CelsiusPort
  r      : Word
  cur    : Word
  newv   : Word
  mask   : Word
  e      : BitVec 2
  bus    : Option BusRef
  devidx : DevIdx
  addr   : DevAddr
  deriving DecidableEq, Repr

/-! ## Response ports (R95) -/

/-- The five result codes (R170). -/
inductive ResultCode where
  | ok
  | invalidParameter
  | notInitialized
  | busError
  | valueOutOfRange
  deriving DecidableEq, Repr

/-- A data result: 16 bits, Celsius, or a member of an enumeration, by the operation (R94, R95). -/
inductive Data where
  | word (v : Word)
  | celsius (y : ℚ)
  | convRate (e : ConvRate)
  | hysteresis (e : Hysteresis)
  | funcMode (e : FuncMode)
  | thermMode (e : ThermMode)
  | polarity (e : Polarity)
  deriving DecidableEq, Repr

/-- The response of one operation: `status` always, `data` only with `Ok` and a data result (R95). -/
structure Response where
  status : ResultCode
  data   : Option Data
  deriving DecidableEq, Repr

end Sys2Proof
end

