-- ==== Sys2Proof/WellFormed.lean ====
section
/-!
DEFINITION. Which requests name an operation the spec defines. There are three checks: the selector names an operation
(spec/30_encoding.md R100), the operand code names a member (R99), the Celsius operand has a value (spec/40_codec.md R114).
Every term of `Instr` is well formed as it stands: its operands are enumerations and exact values.
-/

namespace Sys2Proof

/-- R100: selectors 0x16 to 0x1F name no operation. -/
def Request.selectorNamed (q : Request) : Bool :=
  decide (q.op.toNat ≤ 0x15)

/-- R99: the port `e` with code 3 names no member for SET_FM, and with bit 1 set none for SET_TM and SET_POL. -/
def Request.memberNamed (q : Request) : Bool :=
  match q.op.toNat with
  | 0x11 => decide (q.e.toNat < 3)
  | 0x12 => decide (q.e.toNat < 2)
  | 0x13 => decide (q.e.toNat < 2)
  | _ => true

/-- The operand has an exact value `val(x)` (R11, R114). -/
def CelsiusPort.hasValue : CelsiusPort → Bool
  | .value _ => true
  | .nan => false
  | .posInf => false
  | .negInf => false

/-- R114: the six operations that take a Celsius operand are not defined on one that has no value. -/
def Request.celsiusDefined (q : Request) : Bool :=
  match q.op.toNat with
  | 0x00 => q.x.hasValue
  | 0x03 => q.x.hasValue
  | 0x08 => q.x.hasValue
  | 0x09 => q.x.hasValue
  | 0x14 => q.x.hasValue
  | 0x15 => q.x.hasValue
  | _ => true

/-- A request that names an operation of R94 with operands the spec defines. -/
def Request.wellFormed (q : Request) : Bool :=
  q.selectorNamed && q.memberNamed && q.celsiusDefined

end Sys2Proof
end

