-- ==== Sys2Proof/Decode.lean ====
section
/-!
DEFINITION. From the request ports to an operation, and back (spec/30_encoding.md R83, R94, R95, R99, R100). Decoding is
total on every setting of the ports and rejects by name. The spec gives the ports widths and no bit positions in a common
word, except that the selector is the five bits of the operation table, so a request is decoded from its ports (log 10).
-/

namespace Sys2Proof

/-! ## Member codes (R83) -/

/-- Field code of a conversion rate (R83). -/
def ConvRate.code : ConvRate → Nat
  | .hz0_25 => 0
  | .hz1 => 1
  | .hz4 => 2
  | .hz16 => 3

/-- The conversion rate of a field code, if it names one (R83). -/
def ConvRate.ofCode? : Nat → Option ConvRate
  | 0 => some .hz0_25
  | 1 => some .hz1
  | 2 => some .hz4
  | 3 => some .hz16
  | _ => none

/-- Field code of a hysteresis; four degrees has code 3 (R83). -/
def Hysteresis.code : Hysteresis → Nat
  | .c0 => 0
  | .c1 => 1
  | .c2 => 2
  | .c4 => 3

/-- The hysteresis of a field code, if it names one (R83). -/
def Hysteresis.ofCode? : Nat → Option Hysteresis
  | 0 => some .c0
  | 1 => some .c1
  | 2 => some .c2
  | 3 => some .c4
  | _ => none

/-- Field code of a functional mode (R83). -/
def FuncMode.code : FuncMode → Nat
  | .shutdown => 0
  | .oneShot => 1
  | .continuous => 2

/-- The functional mode of a field code, if it names one; code 3 names none (R83, R99). -/
def FuncMode.ofCode? : Nat → Option FuncMode
  | 0 => some .shutdown
  | 1 => some .oneShot
  | 2 => some .continuous
  | _ => none

/-- Field code of a thermostat mode (R83). -/
def ThermMode.code : ThermMode → Nat
  | .comparator => 0
  | .interrupt => 1

/-- The thermostat mode of a field code, if it names one (R83). -/
def ThermMode.ofCode? : Nat → Option ThermMode
  | 0 => some .comparator
  | 1 => some .interrupt
  | _ => none

/-- Field code of a polarity (R83). -/
def Polarity.code : Polarity → Nat
  | .activeLow => 0
  | .activeHigh => 1

/-- The polarity of a field code, if it names one (R83). -/
def Polarity.ofCode? : Nat → Option Polarity
  | 0 => some .activeLow
  | 1 => some .activeHigh
  | _ => none

/-- The 3-bit number of a result code, where a response is carried as bits (R171). -/
def ResultCode.code : ResultCode → BitVec 3
  | .ok => 0
  | .invalidParameter => 1
  | .notInitialized => 2
  | .busError => 3
  | .valueOutOfRange => 4

/-- The 8-bit number of a register address (R51, R52). -/
def RegAddr.code : RegAddr → BitVec 8
  | .temperature => 0x00
  | .configuration => 0x01
  | .tLow => 0x02
  | .tHigh => 0x03

/-! ## Decoding -/

/-- Why a request is refused. -/
inductive DecodeError where
  /-- The selector names no operation (R100, U7). -/
  | unknownSelector (op : BitVec 5)
  /-- The operand code names no member of the operation's enumeration (R99, U6). -/
  | noSuchMember (op : BitVec 5) (e : BitVec 2)
  /-- The Celsius operand is not a number or is infinite, and so has no value (R114, U1). -/
  | celsiusHasNoValue (op : BitVec 5)
  deriving DecidableEq, Repr

/-- `hnull` = 1 passes no handle (R95). -/
def HandleRef.ofNull : Bool → HandleRef
  | true => .null
  | false => .handle

/-- The port `hnull` of a request (R95). -/
def HandleRef.isNull : HandleRef → Bool
  | .null => true
  | .handle => false

/-- An operation with a Celsius operand, refused where the operand has no value (R114). -/
def Request.withCelsius (q : Request) (k : ℚ → Instr) : Except DecodeError Instr :=
  match q.x with
  | .value x => .ok (k x)
  | .nan => .error (.celsiusHasNoValue q.op)
  | .posInf => .error (.celsiusHasNoValue q.op)
  | .negInf => .error (.celsiusHasNoValue q.op)

/-- An operation with an enumerated operand, refused where the code names no member (R99). -/
def Request.withMember {α : Type} (q : Request) (ofCode? : Nat → Option α) (k : α → Instr) :
    Except DecodeError Instr :=
  match ofCode? q.e.toNat with
  | some e => .ok (k e)
  | none => .error (.noSuchMember q.op q.e)

/-- The operation a request names (R94); ports the operation does not use are ignored (R95). -/
def decode (q : Request) : Except DecodeError Instr :=
  match q.op.toNat with
  | 0x00 => q.withCelsius .encode
  | 0x01 => .ok (.decode q.r)
  | 0x02 => .ok (.maskedWrite q.cur q.newv q.mask)
  | 0x03 => q.withCelsius .rangeCheck
  | 0x04 => .ok (.init (.ofNull q.hnull) q.bus q.devidx q.addr)
  | 0x05 => .ok (.getTemp (.ofNull q.hnull))
  | 0x06 => .ok (.getThigh (.ofNull q.hnull))
  | 0x07 => .ok (.getTlow (.ofNull q.hnull))
  | 0x08 => q.withCelsius (.setThigh (.ofNull q.hnull))
  | 0x09 => q.withCelsius (.setTlow (.ofNull q.hnull))
  | 0x0A => .ok (.getCr (.ofNull q.hnull))
  | 0x0B => .ok (.getHyst (.ofNull q.hnull))
  | 0x0C => .ok (.getFm (.ofNull q.hnull))
  | 0x0D => .ok (.getTm (.ofNull q.hnull))
  | 0x0E => .ok (.getPol (.ofNull q.hnull))
  | 0x0F => q.withMember ConvRate.ofCode? (.setCr (.ofNull q.hnull))
  | 0x10 => q.withMember Hysteresis.ofCode? (.setHyst (.ofNull q.hnull))
  | 0x11 => q.withMember FuncMode.ofCode? (.setFm (.ofNull q.hnull))
  | 0x12 => q.withMember ThermMode.ofCode? (.setTm (.ofNull q.hnull))
  | 0x13 => q.withMember Polarity.ofCode? (.setPol (.ofNull q.hnull))
  | 0x14 => q.withCelsius (.setcThigh (.ofNull q.hnull))
  | 0x15 => q.withCelsius (.setcTlow (.ofNull q.hnull))
  | _ => .error (.unknownSelector q.op)

/-! ## Encoding -/

/-- A request with selector `op` and every operand port at zero. -/
def Request.bare (op : BitVec 5) : Request :=
  { op := op, hnull := false, x := .value 0, r := 0, cur := 0, newv := 0, mask := 0, e := 0,
    bus := none, devidx := ⟨0⟩, addr := 0 }

/-- A request with selector `op` and a handle reference. -/
def Request.forHandle (op : BitVec 5) (h : HandleRef) : Request :=
  { Request.bare op with hnull := h.isNull }

/-- A request with selector `op`, a handle reference and a Celsius operand. -/
def Request.forCelsius (op : BitVec 5) (h : HandleRef) (x : ℚ) : Request :=
  { Request.forHandle op h with x := .value x }

/-- A request with selector `op`, a handle reference and a member code. -/
def Request.forMember (op : BitVec 5) (h : HandleRef) (code : Nat) : Request :=
  { Request.forHandle op h with e := BitVec.ofNat 2 code }

/-- The request that names an operation: its selector (R94), its operands on their ports (R95), unused ports at zero. -/
def encode : Instr → Request
  | .encode x => { Request.bare 0x00 with x := .value x }
  | .decode r => { Request.bare 0x01 with r := r }
  | .maskedWrite cur newv mask => { Request.bare 0x02 with cur := cur, newv := newv, mask := mask }
  | .rangeCheck x => { Request.bare 0x03 with x := .value x }
  | .init h bus devidx addr => { Request.forHandle 0x04 h with bus := bus, devidx := devidx, addr := addr }
  | .getTemp h => Request.forHandle 0x05 h
  | .getThigh h => Request.forHandle 0x06 h
  | .getTlow h => Request.forHandle 0x07 h
  | .setThigh h x => Request.forCelsius 0x08 h x
  | .setTlow h x => Request.forCelsius 0x09 h x
  | .getCr h => Request.forHandle 0x0A h
  | .getHyst h => Request.forHandle 0x0B h
  | .getFm h => Request.forHandle 0x0C h
  | .getTm h => Request.forHandle 0x0D h
  | .getPol h => Request.forHandle 0x0E h
  | .setCr h e => Request.forMember 0x0F h e.code
  | .setHyst h e => Request.forMember 0x10 h e.code
  | .setFm h e => Request.forMember 0x11 h e.code
  | .setTm h e => Request.forMember 0x12 h e.code
  | .setPol h e => Request.forMember 0x13 h e.code
  | .setcThigh h x => Request.forCelsius 0x14 h x
  | .setcTlow h x => Request.forCelsius 0x15 h x

/-! ## Which ports an operation uses (R95, column "used by") -/

/-- `hnull` is used by every operation from 0x04 to 0x15. -/
def Request.usesHandle (op : BitVec 5) : Bool :=
  decide (0x04 ≤ op.toNat) && decide (op.toNat ≤ 0x15)

/-- `x` is used by ENCODE, RANGE_CHECK, SET_THIGH, SET_TLOW, SETC_THIGH and SETC_TLOW. -/
def Request.usesCelsius (op : BitVec 5) : Bool :=
  op == 0x00 || op == 0x03 || op == 0x08 || op == 0x09 || op == 0x14 || op == 0x15

/-- `e` is used by SET_CR, SET_HYST, SET_FM, SET_TM and SET_POL. -/
def Request.usesMember (op : BitVec 5) : Bool :=
  decide (0x0F ≤ op.toNat) && decide (op.toNat ≤ 0x13)

/-- The request with every port its operation does not use set to zero. -/
def Request.canonical (q : Request) : Request :=
  { op := q.op
    hnull := if Request.usesHandle q.op then q.hnull else false
    x := if Request.usesCelsius q.op then q.x else .value 0
    r := if q.op = 0x01 then q.r else 0
    cur := if q.op = 0x02 then q.cur else 0
    newv := if q.op = 0x02 then q.newv else 0
    mask := if q.op = 0x02 then q.mask else 0
    e := if Request.usesMember q.op then q.e else 0
    bus := if q.op = 0x04 then q.bus else none
    devidx := if q.op = 0x04 then q.devidx else ⟨0⟩
    addr := if q.op = 0x04 then q.addr else 0 }

/-! ## The operation table's words -/

/-- The request whose table word is `w`: the port `op` is bits [4:0] of the first `nbits` bits, which is all the operation
table lays out (mask 0x1F in every row), and every operand port is zero (log 10). -/
def Request.ofTableWord (nbits w : Nat) : Request :=
  Request.bare (BitVec.ofNat 5 (w % 2 ^ nbits))

/-- The operation the decoder reads from a table word. -/
def decodeTableWord (nbits w : Nat) : Option Instr :=
  match decode (Request.ofTableWord nbits w) with
  | .ok i => some i
  | .error _ => none

end Sys2Proof
end

