-- ==== Sys2Proof/Machine/Operands.lean ====
section
/-!
DEFINITION. The operand forms and the pure arithmetic of the block: bytes on the wire (format W), the temperature format
(format T), the Configuration register's fields (format C), the range check and the masked write
(spec/10_state.md, spec/20_memory.md, spec/30_encoding.md, spec/40_codec.md).
-/

namespace Sys2Proof.Machine

/-! ## The device bus address (R5) -/

/-- `DEV_ADDR` = 0x48, the device bus address of this sensor (R5, R185). It is the value a caller passes to INIT; the block
stores the operand it is given and does not compare it with this constant (R23, C5, D23). -/
def devAddr : DevAddr := 0x48

/-! ## Format W: big-endian, two bytes (R54, R84) -/

/-- The register value of two bytes, the first on the wire being the more significant. -/
def joinBytes (b0 b1 : Byte) : Word :=
  b0 ++ b1

/-- `v[15:8]`, the first byte on the wire. -/
def firstByte (v : Word) : Byte :=
  v.extractLsb' 8 8

/-- `v[7:0]`, the second byte on the wire. -/
def secondByte (v : Word) : Byte :=
  v.extractLsb' 0 8

/-! ## Format T: the temperature code (R81, R93) -/

/-- `T_MIN` = -75 (R5). -/
def tMin : ℚ := -75

/-- `T_MAX` = 127.9375 = 2047/16 (R5, R7), written in lowest terms so that a comparison with it computes. -/
def tMax : ℚ := { num := 2047, den := 16, den_nz := by decide, reduced := by decide }

/-- The absolute value. -/
def absolute (q : ℚ) : ℚ :=
  if q < 0 then -q else q

/-- The quotient by 0.0625 of the magnitude, truncated: unbounded and not negative (R111; log 14). -/
def stepCount (q : ℚ) : Nat :=
  (absolute q * 16).floor.toNat

/-- Twelve-bit negation as ENCODE writes it: the complement of the value less one (R112). -/
def neg12 (m : Code) : Code :=
  ~~~(m - 1)

/-- Twelve-bit negation as DECODE writes it: the complement plus one (R112). -/
def inv12 (c : Code) : Code :=
  ~~~c + 1

/-- The code of a Celsius value: the truncated magnitude masked to 12 bits, negated if the value is negative (R115). -/
def celsiusCode (q : ℚ) : Code :=
  if q < 0 then neg12 (BitVec.ofNat 12 (stepCount q)) else BitVec.ofNat 12 (stepCount q)

/-- ENCODE's result: the code in bits [15:4], bits [3:0] zero (R115). -/
def encodeCelsius (q : ℚ) : Word :=
  (celsiusCode q).setWidth 16 <<< 4

/-- DECODE's result: the sign is bit 15, bits [3:0] are discarded (R117). -/
def decodeCelsius (r : Word) : ℚ :=
  let raw : Code := r.extractLsb' 4 12
  if r.msb then -(((inv12 raw).toNat : ℚ) / 16) else (raw.toNat : ℚ) / 16

/-- The range check, on the exact value, both bounds inside (R120). -/
def rangeCheck (q : ℚ) : ResultCode :=
  if q < tMin ∨ tMax < q then .valueOutOfRange else .ok

/-! ## Format C: the Configuration register (R28, R83) -/

/-- The lowest bit of a field (R28). -/
def fieldShift : Field → Nat
  | .cr => 13
  | .fh => 12
  | .fl => 11
  | .tm => 10
  | .fm => 8
  | .pol => 7
  | .hyst => 4

/-- The number of bits of a field (R28). -/
def fieldWidth : Field → Nat
  | .cr => 2
  | .fh => 1
  | .fl => 1
  | .tm => 1
  | .fm => 2
  | .pol => 1
  | .hyst => 2

/-- The mask of a field (R28). -/
def fieldMask : Field → Word
  | .cr => 0x6000
  | .fh => 0x1000
  | .fl => 0x0800
  | .tm => 0x0400
  | .fm => 0x0300
  | .pol => 0x0080
  | .hyst => 0x0030

/-- The bits of the Configuration register that R28 assigns to no field. -/
def unassignedMask : Word := 0x804F

/-- `RW_MASK`: the union of the five read/write fields' masks (R28). -/
def rwMask : Word := 0x67B0

/-- The bits that `DEV_STORE` draws on every read of the Configuration register: FH, FL and the unassigned ones (R58). -/
def drawnMask : Word := 0x984F

/-- The field's value in a register value, shifted down (R92). -/
def extractField (f : Field) (v : Word) : Word :=
  (v &&& fieldMask f) >>> fieldShift f

/-- A field code shifted into the field's position (R91). -/
def placeField (f : Field) (code : Nat) : Word :=
  BitVec.ofNat 16 code <<< fieldShift f

/-- The masked write (R122). -/
def maskedWrite (cur newv mask : Word) : Word :=
  (cur &&& ~~~mask) ||| newv

/-- One field of a register value replaced (R157). -/
def updateField (f : Field) (code : Nat) (cur : Word) : Word :=
  maskedWrite cur (placeField f code) (fieldMask f)

/-! ## A field value read from the register, with the defaults of R156 -/

/-- Conversion rate of a field value; default 1 Hz (R151, R156). -/
def mapConvRate (f : Word) : ConvRate :=
  (ConvRate.ofCode? f.toNat).getD .hz1

/-- Hysteresis of a field value; default one degree (R152, R156). -/
def mapHysteresis (f : Word) : Hysteresis :=
  (Hysteresis.ofCode? f.toNat).getD .c1

/-- Functional mode of a field value; default Continuous, reached by the value 3 (R153, R156). -/
def mapFuncMode (f : Word) : FuncMode :=
  (FuncMode.ofCode? f.toNat).getD .continuous

/-- Thermostat mode of a field value; default Comparator (R154, R156). -/
def mapThermMode (f : Word) : ThermMode :=
  (ThermMode.ofCode? f.toNat).getD .comparator

/-- Polarity of a field value; default ActiveLow (R155, R156). -/
def mapPolarity (f : Word) : Polarity :=
  (Polarity.ofCode? f.toNat).getD .activeLow

end Sys2Proof.Machine
end

