-- ==== Sys2Proof/Machine/State.lean ====
section
/-!
DEFINITION. The state of the system as plain data (spec/10_state.md), the environment it runs in (the device behind the bus,
the collaborator's answers, the caller's requests), the reasons a step can stop, and the state after reset (R40 to R42, R200).
-/

namespace Sys2Proof.Machine

/-- The handle `H` (R21 to R24). -/
structure Handle where
  /-- `H.bus`, the bus reference (R22). -/
  bus : BusRef
  /-- `H.addr`, the device bus address (R23). -/
  addr : DevAddr
  /-- `H.init`: true is Ready, false is Uninitialized (R24). -/
  init : Bool
  deriving DecidableEq, Repr

/-- The four device registers `DEV[0x00]` to `DEV[0x03]` (R26). -/
structure DevRegs where
  /-- `DEV[0x00]`, Temperature (R27). -/
  temperature : Word
  /-- `DEV[0x01]`, Configuration (R28). -/
  configuration : Word
  /-- `DEV[0x02]`, the T-Low threshold (R27). -/
  tLow : Word
  /-- `DEV[0x03]`, the T-High threshold (R27). -/
  tHigh : Word
  deriving DecidableEq, Repr

/-- One bus transaction with its operands and its answer (R39 b, R63). R63 lists the device address, the register address, the
bytes and the answer; the bus reference, an operand of both primitives (R57, R59), is kept beside them (log 8). -/
inductive Event where
  | rd (bus : BusRef) (devAddr : DevAddr) (regAddr : RegAddr) (ans : ReadAnswer)
  | wr (bus : BusRef) (devAddr : DevAddr) (regAddr : RegAddr) (b0 b1 : Byte) (ans : WriteAnswer)
  deriving DecidableEq, Repr

/-- What the environment does with one read call: it answers (under `devStore` the two bytes are the value the device draws),
or it never returns (R57, R58, U15). -/
inductive ReadReply where
  | returns (ans : ReadAnswer)
  | never
  deriving DecidableEq, Repr

/-- What the environment does with one write call: it answers `ok`; it answers `error`, the register then holding any value
(R59, U4); or it never returns (U15). -/
inductive WriteReply where
  | ok
  | error (left : Word)
  | never
  deriving DecidableEq, Repr

/-- What the outside world does to the block in one step: it puts one request on the ports, or two that overlap in time
(R187, U3), or it resets the block (R200, R201; log 18). -/
inductive Issue where
  | one (q : Request)
  | overlapping (q q' : Request)
  | blockReset
  deriving DecidableEq, Repr

/-- The state of the block, of the device behind the bus and of the environment's inputs. -/
structure State where
  /-- The handle, the only state inside the block (R21). -/
  handle : Handle
  /-- The device registers as `DEV_STORE` holds them (R26, R58; log 9). -/
  dev : DevRegs
  /-- The parameter `DEVICE`: which device answers (R6, R58; log 5). No step changes it. -/
  device : Device
  /-- The event history, oldest first (R63). No operation reads it. -/
  history : List Event
  /-- The requests the caller has issued and the block has not accepted yet, in order, with the resets of the block among
  them (R187, R200; log 11, log 18). -/
  requests : List Issue
  /-- The collaborator's next answers to reads; when none is listed the answer is a free value (R25, R58; log 6). -/
  reads : List ReadReply
  /-- The collaborator's next answers to writes; when none is listed the answer is a free value (R25, R59; log 6). -/
  writes : List WriteReply
  /-- How many free values have been drawn: the model's own counter (log 3, log 6). -/
  draws : Nat
  /-- The response ports, as the last operation left them (R95; log 13). No operation reads them. -/
  response : Option Response
  deriving DecidableEq, Repr

/-- Why the machine stops. The block itself never traps (R178). -/
inductive Fault where
  /-- The collaborator's call never returns, so the operation never ends: the spec's `stuck` (U15, R215). Raised by the bus
  primitives `readReg` and `writeReg` on a scripted reply `never`. Safe. -/
  | collaboratorNeverReturns
  deriving DecidableEq, Repr

/-- Why a request has no meaning. -/
inductive Refusal where
  /-- The instruction has no meaning in this model yet. Raised by `exec` alone; no arm raises it. Safe. -/
  | notModelled (mnemonic : String)
  /-- The request names no operation the spec defines (R99, R100, R114; U1, U6, U7). Raised by `accept`. Safe. -/
  | rejectedRequest (why : DecodeError)
  /-- Two operations in progress at once (R187, U3). Raised by `accept`. Safe. -/
  | overlappingRequests
  deriving DecidableEq, Repr

/-- The handle after the `n`-th reset of the block: Uninitialized, its other two fields without a value, which free values
stand for (R40, R200; log 3). -/
def Handle.unset (n : Nat) : Handle where
  bus := Config.busReset n
  addr := Config.addrReset n
  init := false

/-- The device registers after the sensor's power-up: the open parameter `DEV_RESET` (R41, U9; log 4). -/
def DevRegs.powerUp : DevRegs where
  temperature := Config.devReset .temperature
  configuration := Config.devReset .configuration
  tLow := Config.devReset .tLow
  tHigh := Config.devReset .tHigh

/-- The system when it starts (R40 to R42, R200): the block after its reset, Uninitialized, with no history and no request yet,
and the sensor after its power-up. A later reset of the block alone is `State.blockReset`, of the sensor alone
`State.sensorReset` (R41, R201). -/
def State.reset : State where
  handle := Handle.unset 0
  dev := DevRegs.powerUp
  device := .oracle
  history := []
  requests := []
  reads := []
  writes := []
  draws := 0
  response := none

end Sys2Proof.Machine
end

