-- ==== Sys2Proof/Machine/Flags.lean ====
section
/-!
DEFINITION. The flags. The block has one, `H.init`, and no condition codes (spec/10_state.md R36); the device's Configuration
register has two status flags, which the block carries and never tests (R30, R37).
-/

namespace Sys2Proof.Machine

/-- The handle is Ready (R24). -/
def State.ready (s : State) : Bool :=
  s.handle.init

/-- Write `H.init` (R24). -/
def State.setInit (s : State) (b : Bool) : State :=
  { s with handle := { s.handle with init := b } }

/-- `FH` of a Configuration register value, bit 12 (R30). -/
def faultHigh (v : Word) : Bool :=
  v.getLsbD (fieldShift .fh)

/-- `FL` of a Configuration register value, bit 11 (R30). -/
def faultLow (v : Word) : Bool :=
  v.getLsbD (fieldShift .fl)

end Sys2Proof.Machine
end

