-- ==== Sys2Proof/Machine/Ops.lean ====
section
/-!
DEFINITION. The shared operations: the response ports, the event history, the device behind the bus, the two bus primitives
with their error path (the one "exception" of this hardware, spec/60_exceptions.md R178), the prologue (R176), the common
forms of the driver's operations, and the acceptance of a request.
-/

namespace Sys2Proof.Machine

/-- What an operation answers. -/
abbrev Out := Host.Outcome State Fault Refusal

/-! ## Updates of the state -/

/-- Drive the response ports (R95). -/
def State.respond (s : State) (status : ResultCode) (data : Option Data) : State :=
  { s with response := some { status := status, data := data } }

/-- Append a transaction to the event history (R63). -/
def State.record (s : State) (e : Event) : State :=
  { s with history := s.history ++ [e] }

/-- The rest of the scripted read answers. -/
def State.dropRead (s : State) : State :=
  { s with reads := s.reads.tail }

/-- The rest of the scripted write answers. -/
def State.dropWrite (s : State) : State :=
  { s with writes := s.writes.tail }

/-- Count one free answer as drawn. -/
def State.countDraw (s : State) : State :=
  { s with draws := s.draws + 1 }

/-- The content of a device register (R26). -/
def DevRegs.get (d : DevRegs) : RegAddr → Word
  | .temperature => d.temperature
  | .configuration => d.configuration
  | .tLow => d.tLow
  | .tHigh => d.tHigh

/-- A device register overwritten (R26). -/
def DevRegs.set (d : DevRegs) (a : RegAddr) (v : Word) : DevRegs :=
  match a with
  | .temperature => { d with temperature := v }
  | .configuration => { d with configuration := v }
  | .tLow => { d with tLow := v }
  | .tHigh => { d with tHigh := v }

/-- `DEV[a] <- v` (R58). -/
def State.setDev (s : State) (a : RegAddr) (v : Word) : State :=
  { s with dev := s.dev.set a v }

/-! ## Ends of an operation -/

/-- `return S` and `return Ok(v)` of R10: the operation ends with a result code and, with `Ok` only, data. -/
def finish (status : ResultCode) (data : Option Data) (s : State) : Out :=
  .next (s.respond status data)

/-- `return Ok` with no data (R10). -/
def done (s : State) : Out :=
  finish .ok none s

/-- `return Ok(v)` (R10). -/
def answer (d : Data) (s : State) : Out :=
  finish .ok (some d) s

/-- The error path of a bus transaction, the block's one exception: the handle is demoted and the operation ends at once with
`BusError`; nothing is saved, and `H.bus` and `H.addr` keep their values (R178). -/
def busFailure (s : State) : Out :=
  finish .busError none (s.setInit false)

/-- A successful INIT, the only way back from the error path: the fields are overwritten and the handle is Ready
(R132, R179, R186). -/
def State.initialise (s : State) (bus : BusRef) (addr : DevAddr) : State :=
  { s with handle := { bus := bus, addr := addr, init := true } }

/-! ## The device behind the bus (R58) -/

/-- What `DEV_STORE` returns for a read that answers `ok`, the device having drawn `d` (R58). -/
def storeValue (dev : DevRegs) (a : RegAddr) (d : Word) : Word :=
  match a with
  | .temperature => d
  | .configuration => (dev.configuration &&& rwMask) ||| (d &&& drawnMask)
  | .tLow => dev.tLow
  | .tHigh => dev.tHigh

/-- The answer the block sees: under the oracle, whatever the environment says; under `DEV_STORE`, an `ok` carries the stored
value, with the drawn bits taken from the environment's bytes (R58). DESIGN CHOICE: the one register file answers whatever
`H.bus` and `H.addr` are; the spec puts the sensor at 0x48 on one channel and is silent on the others (R50, R185; log 19). -/
def deviceAnswer (device : Device) (dev : DevRegs) (a : RegAddr) (ans : ReadAnswer) : ReadAnswer :=
  match device, ans with
  | .oracle, ans => ans
  | .devStore, .error => .error
  | .devStore, .ok b0 b1 =>
    let v := storeValue dev a (joinBytes b0 b1)
    .ok (firstByte v) (secondByte v)

/-! ## The two primitives (R57, R59) -/

/-- What the environment does with the next read: the script's next reply, or a free answer (R58). -/
def readReply (a : RegAddr) (s : State) : ReadReply :=
  match s.reads with
  | [] => .returns (Config.freeRead s.handle.bus s.handle.addr a s.draws)
  | r :: _ => r

/-- The environment after that reply. -/
def afterReadReply (s : State) : State :=
  match s.reads with
  | [] => s.countDraw
  | _ :: _ => s.dropRead

/-- The answer the block sees to its next read of `a`; `none` if the call never returns (R57, R58, U15). -/
def readAnswer (a : RegAddr) (s : State) : Option ReadAnswer :=
  match readReply a s with
  | .never => none
  | .returns ans => some (deviceAnswer s.device s.dev a ans)

/-- The transaction of a read (R63). -/
def readEvent (a : RegAddr) (ans : ReadAnswer) (s : State) : Event :=
  .rd s.handle.bus s.handle.addr a ans

/-- The state after a read that was answered with `ans`: the transaction is recorded (R63). -/
def afterRead (a : RegAddr) (ans : ReadAnswer) (s : State) : State :=
  (afterReadReply s).record (readEvent a ans s)

/-- `BusRead(H.bus, H.addr, a, 2)`: the answer and the state after it (R57); `none` if the call never returns (U15). -/
def busRead (a : RegAddr) (s : State) : Option (ReadAnswer × State) :=
  (readAnswer a s).map fun ans => (ans, afterRead a ans s)

/-- What the environment does with the next write of `v`: the script's next reply, or a free answer (R59). -/
def writeReply (a : RegAddr) (v : Word) (s : State) : WriteReply :=
  match s.writes with
  | [] =>
    match Config.freeWrite s.handle.bus s.handle.addr a v s.draws with
    | .ok => .ok
    | .error => .error (Config.freeLeft s.handle.bus s.handle.addr a v s.draws)
  | r :: _ => r

/-- The environment after that reply. -/
def afterWriteReply (s : State) : State :=
  match s.writes with
  | [] => s.countDraw
  | _ :: _ => s.dropWrite

/-- The answer the block sees to its next write; `none` if the call never returns (R59, U15). -/
def writeAnswer (a : RegAddr) (v : Word) (s : State) : Option WriteAnswer :=
  match writeReply a v s with
  | .never => none
  | .ok => some .ok
  | .error _ => some .error

/-- What the addressed register holds after the write: `v`, or any value after an error (R58, R59, U4). -/
def writtenValue (a : RegAddr) (v : Word) (s : State) : Word :=
  match writeReply a v s with
  | .never => v
  | .ok => v
  | .error left => left

/-- The transaction of a write of `v`, the more significant byte first (R54, R63). -/
def writeEvent (a : RegAddr) (v : Word) (ans : WriteAnswer) (s : State) : Event :=
  .wr s.handle.bus s.handle.addr a (firstByte v) (secondByte v) ans

/-- The state after a write that was answered with `ans`: the register is overwritten and the transaction recorded
(R59, R63). DESIGN CHOICE: the register file is updated under either device (log 9), and whatever `H.bus` and `H.addr` are, the
spec being silent on what stands at an address other than 0x48 or on another bus (R50, R185; log 19). -/
def afterWrite (a : RegAddr) (v : Word) (ans : WriteAnswer) (s : State) : State :=
  ((afterWriteReply s).setDev a (writtenValue a v s)).record (writeEvent a v ans s)

/-- `BusWrite(H.bus, H.addr, a, [v[15:8], v[7:0]])`: the answer and the state after it (R59); `none` if the call never
returns (U15). -/
def busWrite (a : RegAddr) (v : Word) (s : State) : Option (WriteAnswer × State) :=
  (writeAnswer a v s).map fun ans => (ans, afterWrite a v ans s)

/-- `ReadReg(a)`, and then `k` on the value read (R57). -/
def readReg (a : RegAddr) (k : Word → State → Out) (s : State) : Out :=
  match busRead a s with
  | none => .fault .collaboratorNeverReturns
  | some (.error, s') => busFailure s'
  | some (.ok b0 b1, s') => k (joinBytes b0 b1) s'

/-- `WriteReg(a, v)`, and then `k` (R59). -/
def writeReg (a : RegAddr) (v : Word) (k : State → Out) (s : State) : Out :=
  match busWrite a v s with
  | none => .fault .collaboratorNeverReturns
  | some (.error, s') => busFailure s'
  | some (.ok, s') => k s'

/-! ## Common forms of the driver's operations -/

/-- `PROLOGUE`: the two checks, in this order, at the head of every driver operation but INIT (R176). -/
def prologue (h : HandleRef) (k : State → Out) (s : State) : Out :=
  match h with
  | .null => finish .invalidParameter none s
  | .handle => if s.ready then k s else finish .notInitialized none s

/-- Read a temperature-format register and decode it (R133 to R135). -/
def readCelsius (a : RegAddr) (h : HandleRef) (s : State) : Out :=
  prologue h (readReg a fun v => answer (.celsius (decodeCelsius v))) s

/-- Encode a Celsius value and write it to a threshold register (R136, R137). -/
def writeCelsius (a : RegAddr) (h : HandleRef) (x : ℚ) (s : State) : Out :=
  prologue h (writeReg a (encodeCelsius x) done) s

/-- Range check first, then the operation (R103, R138, R177). -/
def rangeChecked (x : ℚ) (k : State → Out) (s : State) : Out :=
  match rangeCheck x with
  | .ok => k s
  | _ => finish .valueOutOfRange none s

/-- `GET_FIELD`: read the Configuration register, extract the field and map it to its meaning (R150). -/
def getField (f : Field) (map : Word → Data) (h : HandleRef) (s : State) : Out :=
  prologue h (readReg .configuration fun v => answer (map (extractField f v))) s

/-- `SET_FIELD`: read the Configuration register, replace the field, write it back (R157). -/
def setField (f : Field) (code : Nat) (h : HandleRef) (s : State) : Out :=
  prologue h
    (readReg .configuration fun cur => writeReg .configuration (updateField f code cur) done) s

/-! ## Resets (R41, R200, R201) -/

/-- A reset of the block: Uninitialized, `H.bus` and `H.addr` without a value (fresh free values), event history empty, no
response (R200). The device registers are kept, since it does not reset the sensor (R41, R201); what the environment
holds is not the block's and is kept too (log 18). -/
def State.blockReset (s : State) : State :=
  { s with
    handle := Handle.unset (s.draws + 1)
    history := []
    draws := s.draws + 1
    response := none }

/-- A reset of the sensor: its registers hold `DEV_RESET` again, and the block is not reset (R41). No operation and no step of
the block does this (R201): it is an act of the outside world (log 18). -/
def State.sensorReset (s : State) : State :=
  { s with dev := DevRegs.powerUp }

/-! ## Accepting a request (R95, R187, R200) -/

/-- Take the outside world's next act: the operation to run, if there is one, and the state it runs in. Nothing pending: the
block waits (R200). A reset: the block is reset (R200, R201). A request is refused if it names no defined operation
(R99, R100, R114), and two that overlap are refused (R187). -/
def accept (s : State) : Except Refusal (Option Instr × State) :=
  match s.requests with
  | [] => .ok (none, s)
  | .blockReset :: rest => .ok (none, State.blockReset { s with requests := rest })
  | .overlapping _ _ :: _ => .error .overlappingRequests
  | .one q :: rest =>
    match decode q with
    | .error why => .error (.rejectedRequest why)
    | .ok i => .ok (some i, { s with requests := rest })

/-- Put a request before all others, as the one the next step accepts. -/
def State.issueFirst (s : State) (q : Request) : State :=
  { s with requests := .one q :: s.requests }

end Sys2Proof.Machine
end

