-- ==== Sys2Proof/Machine/Codec.lean ====
section
/-!
DEFINITION. The four pure operations of the Register Codec: they take no handle, read and write no state but the response
ports, and issue no transaction (spec/30_encoding.md R96, spec/40_codec.md).
-/

namespace Sys2Proof.Machine

/-- ENCODE (R115, R116). -/
def execEncode (x : ℚ) (s : State) : Out :=
  answer (.word (encodeCelsius x)) s

/-- DECODE (R117, R118). -/
def execDecode (r : Word) (s : State) : Out :=
  answer (.celsius (decodeCelsius r)) s

/-- MASKED_WRITE (R122, R124). -/
def execMaskedWrite (cur newv mask : Word) (s : State) : Out :=
  answer (.word (maskedWrite cur newv mask)) s

/-- RANGE_CHECK (R120). -/
def execRangeCheck (x : ℚ) (s : State) : Out :=
  finish (rangeCheck x) none s

end Sys2Proof.Machine
end

