-- ==== Sys2Proof/Machine/Configuration.lean ====
section
/-!
DEFINITION. The Sensor Driver's operations on the five read/write fields of the Configuration register
(spec/42_driver_config.md).
-/

namespace Sys2Proof.Machine

/-- GET_CR (R151). -/
def execGetCr (h : HandleRef) (s : State) : Out :=
  getField .cr (fun f => .convRate (mapConvRate f)) h s

/-- GET_HYST (R152). -/
def execGetHyst (h : HandleRef) (s : State) : Out :=
  getField .hyst (fun f => .hysteresis (mapHysteresis f)) h s

/-- GET_FM (R153). -/
def execGetFm (h : HandleRef) (s : State) : Out :=
  getField .fm (fun f => .funcMode (mapFuncMode f)) h s

/-- GET_TM (R154). -/
def execGetTm (h : HandleRef) (s : State) : Out :=
  getField .tm (fun f => .thermMode (mapThermMode f)) h s

/-- GET_POL (R155). -/
def execGetPol (h : HandleRef) (s : State) : Out :=
  getField .pol (fun f => .polarity (mapPolarity f)) h s

/-- SET_CR (R158). -/
def execSetCr (h : HandleRef) (e : ConvRate) (s : State) : Out :=
  setField .cr e.code h s

/-- SET_HYST (R159). -/
def execSetHyst (h : HandleRef) (e : Hysteresis) (s : State) : Out :=
  setField .hyst e.code h s

/-- SET_FM (R160). -/
def execSetFm (h : HandleRef) (e : FuncMode) (s : State) : Out :=
  setField .fm e.code h s

/-- SET_TM (R161). -/
def execSetTm (h : HandleRef) (e : ThermMode) (s : State) : Out :=
  setField .tm e.code h s

/-- SET_POL (R162). -/
def execSetPol (h : HandleRef) (e : Polarity) (s : State) : Out :=
  setField .pol e.code h s

end Sys2Proof.Machine
end

