-- ==== Sys2Proof/Machine/Temperature.lean ====
section
/-!
DEFINITION. The Sensor Driver's initialisation, temperature and threshold operations (spec/41_driver_temperature.md).
-/

namespace Sys2Proof.Machine

/-- INIT (R132). The device index has no effect (D14), the address is not compared with 0x48 (C5), and no transaction is
issued (D15). -/
def execInit (h : HandleRef) (bus : Option BusRef) (_devidx : DevIdx) (addr : DevAddr) (s : State) : Out :=
  match h, bus with
  | .handle, some b => done (s.initialise b addr)
  | .handle, none => finish .invalidParameter none s
  | .null, _ => finish .invalidParameter none s

/-- GET_TEMP (R133). -/
def execGetTemp (h : HandleRef) (s : State) : Out :=
  readCelsius .temperature h s

/-- GET_THIGH (R134). -/
def execGetThigh (h : HandleRef) (s : State) : Out :=
  readCelsius .tHigh h s

/-- GET_TLOW (R135). -/
def execGetTlow (h : HandleRef) (s : State) : Out :=
  readCelsius .tLow h s

/-- SET_THIGH (R136): no range check, no ordering check. -/
def execSetThigh (h : HandleRef) (x : ℚ) (s : State) : Out :=
  writeCelsius .tHigh h x s

/-- SET_TLOW (R137): no range check, no ordering check. -/
def execSetTlow (h : HandleRef) (x : ℚ) (s : State) : Out :=
  writeCelsius .tLow h x s

/-- SETC_THIGH (R138). -/
def execSetcThigh (h : HandleRef) (x : ℚ) (s : State) : Out :=
  rangeChecked x (writeCelsius .tHigh h x) s

/-- SETC_TLOW (R139). -/
def execSetcTlow (h : HandleRef) (x : ℚ) (s : State) : Out :=
  rangeChecked x (writeCelsius .tLow h x) s

end Sys2Proof.Machine
end

