-- ==== Sys2Proof/Machine/Dispatch.lean ====
section
/-!
DEFINITION. One arm per operation of spec/30_encoding.md R94, each a call of its meaning.
-/

namespace Sys2Proof.Machine

def exec (i : Instr) (s : State) : Host.Outcome State Fault Refusal :=
  match i with
  | .encode x => Sys2Proof.Machine.execEncode x s
  | .decode r => Sys2Proof.Machine.execDecode r s
  | .maskedWrite cur newv mask => Sys2Proof.Machine.execMaskedWrite cur newv mask s
  | .rangeCheck x => Sys2Proof.Machine.execRangeCheck x s
  | .init h bus devidx addr => Sys2Proof.Machine.execInit h bus devidx addr s
  | .getTemp h => Sys2Proof.Machine.execGetTemp h s
  | .getThigh h => Sys2Proof.Machine.execGetThigh h s
  | .getTlow h => Sys2Proof.Machine.execGetTlow h s
  | .setThigh h x => Sys2Proof.Machine.execSetThigh h x s
  | .setTlow h x => Sys2Proof.Machine.execSetTlow h x s
  | .getCr h => Sys2Proof.Machine.execGetCr h s
  | .getHyst h => Sys2Proof.Machine.execGetHyst h s
  | .getFm h => Sys2Proof.Machine.execGetFm h s
  | .getTm h => Sys2Proof.Machine.execGetTm h s
  | .getPol h => Sys2Proof.Machine.execGetPol h s
  | .setCr h e => Sys2Proof.Machine.execSetCr h e s
  | .setHyst h e => Sys2Proof.Machine.execSetHyst h e s
  | .setFm h e => Sys2Proof.Machine.execSetFm h e s
  | .setTm h e => Sys2Proof.Machine.execSetTm h e s
  | .setPol h e => Sys2Proof.Machine.execSetPol h e s
  | .setcThigh h x => Sys2Proof.Machine.execSetcThigh h x s
  | .setcTlow h x => Sys2Proof.Machine.execSetcTlow h x s

end Sys2Proof.Machine
end

