-- ==== Sys2Proof/Machine/Step.lean ====
section
/-!
DEFINITION. One step: the block accepts the caller's next request and runs the whole operation (spec/10_state.md R25, D3), or is
reset, or waits when there is nothing pending (spec/70_reset_and_hazards.md R200).
-/

namespace Sys2Proof.Machine

/-- One step of the machine. -/
def step (s : State) : Host.Outcome State Fault Refusal :=
  match accept s with
  | .error r => .refused r
  | .ok (none, s') => .next s'
  | .ok (some i, s') => exec i s'

/-- The state with the operation of a table word as the request that the next step accepts (log 10, log 11). -/
def State.withFetchWord (s : State) (nbits w : Nat) : State :=
  s.issueFirst (Request.ofTableWord nbits w)

end Sys2Proof.Machine
end

