-- ==== Sys2Proof/Safety.lean ====
section
/-!
DEFINITION. What the caller and the collaborator owe the block (spec/70_reset_and_hazards.md, section 3), and the invariant of
the machine, in the terms the claims use.
-/

namespace Sys2Proof.Safety

open Sys2Proof.Machine

/-! ## Obligations of the environment -/

/-- The outside world issues one request that the spec defines, not two at once (R205), and none with an unknown selector, a
code without a member or a Celsius operand without a value (R99, R100, R114); or it resets the block (R200). -/
def issueDefined : Issue → Bool
  | .one q => q.wellFormed
  | .overlapping _ _ => false
  | .blockReset => true

/-- The read call returns (R215, U15). -/
def readReturns : ReadReply → Bool
  | .returns _ => true
  | .never => false

/-- The write call returns (R215, U15). -/
def writeReturns : WriteReply → Bool
  | .ok => true
  | .error _ => true
  | .never => false

/-- The environment keeps to its part: every pending request is defined and alone, and every scripted call returns. -/
def EnvironmentSafe (s : State) : Prop :=
  s.requests.all issueDefined = true ∧ s.reads.all readReturns = true ∧ s.writes.all writeReturns = true

/-- MASKED_WRITE's precondition, the caller's to meet (R207). -/
def maskedWritePre (newv mask : Word) : Bool :=
  newv &&& ~~~mask == 0

/-- The range the caller must keep to before an unchecked encoding or write (R208). -/
def inRange (q : ℚ) : Prop :=
  -75 ≤ q ∧ q ≤ 2047 / 16

/-- The handle addresses this sensor, as a caller sees to by passing `DEV_ADDR` to INIT (R5, R185); the block does not check it
(C5). -/
def addressesSensor (s : State) : Bool :=
  s.handle.addr == devAddr

/-- The caller's ordering policy before a write of T-High: strictly above the T-Low it has read (R210). DESIGN CHOICE: the
comparison is on exact Celsius values; the spec leaves open whether it is on those or on the encoded codes (N12; log 17). -/
def tHighAllowed (new tLowRead : ℚ) : Prop :=
  tLowRead < new

/-- The caller's ordering policy before a write of T-Low: strictly below the T-High it has read (R210). DESIGN CHOICE: the
comparison is on exact Celsius values; the spec leaves open whether it is on those or on the encoded codes (N12; log 17). -/
def tLowAllowed (new tHighRead : ℚ) : Prop :=
  new < tHighRead

/-! ## The invariant of the machine -/

/-- The response carries data only with `Ok` (R95, D13). -/
def responseSound : Option Response → Bool
  | none => true
  | some r => r.status == .ok || r.data.isNone

/-- A transaction the block may issue: it writes no value to Temperature (R61), and what it writes to a threshold register has
bits [3:0] zero (R27, R97). -/
def eventSound : Event → Bool
  | .rd _ _ _ _ => true
  | .wr _ _ .temperature _ _ _ => false
  | .wr _ _ .configuration _ _ _ => true
  | .wr _ _ .tLow _ b1 _ => b1 &&& 0x0F == 0
  | .wr _ _ .tHigh _ b1 _ => b1 &&& 0x0F == 0

/-- The last value a history writes to a register, with the answer to that write. -/
def lastWrite (a : RegAddr) : List Event → Option (Word × WriteAnswer)
  | [] => none
  | e :: rest =>
    match lastWrite a rest with
    | some w => some w
    | none =>
      match e with
      | .rd _ _ _ _ => none
      | .wr _ _ a' b0 b1 ans => if a' = a then some (joinBytes b0 b1, ans) else none

/-- A register whose last write answered `ok` holds the value written: `DEV_STORE` is a function of the history
(R58, R63). It speaks of the field `dev`, the register file of `DEV_STORE`, which the model keeps under the oracle too and which
no read then answers from (log 9). -/
def devFollowsHistory (s : State) : Prop :=
  ∀ a v, lastWrite a s.history = some (v, .ok) → s.dev.get a = v

/-- The invariant: reset meets it, and every step keeps it from every state that meets it. -/
structure Inv (s : State) : Prop where
  response : responseSound s.response = true
  events : s.history.all eventSound = true
  store : devFollowsHistory s

end Sys2Proof.Safety
end

