-- ==== Sys2Proof/Certificates/Slice0/Obligations.lean ====
section
/-!
DEFINITION. The statements for the provers. `Sys2Proof.Spec` holds the words they share; each docstring names the rules of
spec/ a statement formalises.
-/

namespace Sys2Proof.Spec

open Sys2Proof.Machine

/-! ## Words the statements share -/

/-- `trunc(16 val(x))`, the integer part towards zero (R9, R115). -/
def truncSteps (x : ℚ) : ℤ :=
  if x < 0 then -⌊-(16 * x)⌋ else ⌊16 * x⌋

/-- The handle argument of the operations with selectors 0x05 to 0x13, which all begin with PROLOGUE (R176). -/
def gatedHandle : Instr → Option HandleRef
  | .encode _ => none
  | .decode _ => none
  | .maskedWrite _ _ _ => none
  | .rangeCheck _ => none
  | .init _ _ _ _ => none
  | .getTemp h => some h
  | .getThigh h => some h
  | .getTlow h => some h
  | .setThigh h _ => some h
  | .setTlow h _ => some h
  | .getCr h => some h
  | .getHyst h => some h
  | .getFm h => some h
  | .getTm h => some h
  | .getPol h => some h
  | .setCr h _ => some h
  | .setHyst h _ => some h
  | .setFm h _ => some h
  | .setTm h _ => some h
  | .setPol h _ => some h
  | .setcThigh _ _ => none
  | .setcTlow _ _ => none

/-- The range-checked composites: register, handle argument and operand (R103). -/
def composite : Instr → Option (RegAddr × HandleRef × ℚ)
  | .setcThigh h x => some (.tHigh, h, x)
  | .setcTlow h x => some (.tLow, h, x)
  | _ => none

/-- The temperature-format reads: register and handle argument (R133 to R135). -/
def temperatureRead : Instr → Option (RegAddr × HandleRef)
  | .getTemp h => some (.temperature, h)
  | .getThigh h => some (.tHigh, h)
  | .getTlow h => some (.tLow, h)
  | _ => none

/-- The unchecked threshold writes: register, handle argument and operand (R136, R137). -/
def thresholdWrite : Instr → Option (RegAddr × HandleRef × ℚ)
  | .setThigh h x => some (.tHigh, h, x)
  | .setTlow h x => some (.tLow, h, x)
  | _ => none

/-- The field reads: handle argument and meaning of the two bytes read, bit by bit (R28, R151 to R155). Bit `n` of the
register is bit `n - 8` of the first byte for `n` of 8 or more. -/
def fieldRead : Instr → Option (HandleRef × (Byte → Byte → Data))
  | .getCr h => some (h, fun b0 _ => .convRate
      (match b0.getLsbD 6, b0.getLsbD 5 with
        | false, false => .hz0_25
        | false, true => .hz1
        | true, false => .hz4
        | true, true => .hz16))
  | .getHyst h => some (h, fun _ b1 => .hysteresis
      (match b1.getLsbD 5, b1.getLsbD 4 with
        | false, false => .c0
        | false, true => .c1
        | true, false => .c2
        | true, true => .c4))
  | .getFm h => some (h, fun b0 _ => .funcMode
      (match b0.getLsbD 1, b0.getLsbD 0 with
        | false, false => .shutdown
        | false, true => .oneShot
        | true, _ => .continuous))
  | .getTm h => some (h, fun b0 _ => .thermMode (if b0.getLsbD 2 then .interrupt else .comparator))
  | .getPol h => some (h, fun _ b1 => .polarity (if b1.getLsbD 7 then .activeHigh else .activeLow))
  | _ => none

/-- The field writes: handle argument, the bits kept, and the bits put in (R158 to R162, codes of R83). -/
def fieldWrite : Instr → Option (HandleRef × Word × Word)
  | .setCr h e => some (h, 0x9FFF,
      match e with | .hz0_25 => 0x0000 | .hz1 => 0x2000 | .hz4 => 0x4000 | .hz16 => 0x6000)
  | .setHyst h e => some (h, 0xFFCF,
      match e with | .c0 => 0x0000 | .c1 => 0x0010 | .c2 => 0x0020 | .c4 => 0x0030)
  | .setFm h e => some (h, 0xFCFF,
      match e with | .shutdown => 0x0000 | .oneShot => 0x0100 | .continuous => 0x0200)
  | .setTm h e => some (h, 0xFBFF, match e with | .comparator => 0x0000 | .interrupt => 0x0400)
  | .setPol h e => some (h, 0xFF7F, match e with | .activeLow => 0x0000 | .activeHigh => 0x0080)
  | _ => none

/-- A set operation of a field, with the get operation of the same field and the answer that get then gives. -/
def setThenGet : Instr → Option (Instr × Data)
  | .setCr .handle e => some (.getCr .handle, .convRate e)
  | .setHyst .handle e => some (.getHyst .handle, .hysteresis e)
  | .setFm .handle e => some (.getFm .handle, .funcMode e)
  | .setTm .handle e => some (.getTm .handle, .thermMode e)
  | .setPol .handle e => some (.getPol .handle, .polarity e)
  | _ => none

/-- The operation is INIT. -/
def isInit : Instr → Bool
  | .init _ _ _ _ => true
  | _ => false

/-- The operation is one of the four pure functions (R96). -/
def isPure : Instr → Bool
  | .encode _ => true
  | .decode _ => true
  | .maskedWrite _ _ _ => true
  | .rangeCheck _ => true
  | _ => false

/-- The state after a read that ends the operation: the environment has advanced, the transaction is recorded, the response is
driven, and nothing else has changed. -/
def readEnds (a : RegAddr) (ans : ReadAnswer) (c : ResultCode) (d : Option Data) (s : State) : State :=
  { afterReadReply s with
    history := s.history ++ [.rd s.handle.bus s.handle.addr a ans]
    response := some { status := c, data := d } }

/-- The state after a write of `v` that ends the operation, the register then holding `held` in the register file of DEV_STORE
(log 9, log 19). -/
def writeEnds (a : RegAddr) (v held : Word) (ans : WriteAnswer) (c : ResultCode) (s : State) : State :=
  { afterWriteReply s with
    dev := s.dev.set a held
    history := s.history ++
      [.wr s.handle.bus s.handle.addr a (v.extractLsb' 8 8) (v.extractLsb' 0 8) ans]
    response := some { status := c, data := none } }

/-- The state after the read half of a masked update, before its write half. -/
def readHalf (b0 b1 : Byte) (s : State) : State :=
  { afterReadReply s with
    history := s.history ++ [.rd s.handle.bus s.handle.addr .configuration (.ok b0 b1)] }

/-- The handle demoted (R178). -/
def demoted (s : State) : State :=
  { s with handle := { bus := s.handle.bus, addr := s.handle.addr, init := false } }

/-- The state in which only the response ports changed. -/
def onlyResponse (c : ResultCode) (d : Option Data) (s : State) : State :=
  { s with response := some { status := c, data := d } }

/-- Whether a transaction is a write, and the register it addresses. -/
def shape : Event → Bool × RegAddr
  | .rd _ _ a _ => (false, a)
  | .wr _ _ a _ _ _ => (true, a)

/-- The transaction was answered `ok`. -/
def answeredOk : Event → Bool
  | .rd _ _ _ (.ok _ _) => true
  | .rd _ _ _ .error => false
  | .wr _ _ _ _ _ .ok => true
  | .wr _ _ _ _ _ .error => false

/-- The transactions an operation issues when nothing fails (the table of R60). -/
def transactions : Instr → List (Bool × RegAddr)
  | .encode _ => []
  | .decode _ => []
  | .maskedWrite _ _ _ => []
  | .rangeCheck _ => []
  | .init _ _ _ _ => []
  | .getTemp _ => [(false, .temperature)]
  | .getThigh _ => [(false, .tHigh)]
  | .getTlow _ => [(false, .tLow)]
  | .setThigh _ _ => [(true, .tHigh)]
  | .setTlow _ _ => [(true, .tLow)]
  | .getCr _ => [(false, .configuration)]
  | .getHyst _ => [(false, .configuration)]
  | .getFm _ => [(false, .configuration)]
  | .getTm _ => [(false, .configuration)]
  | .getPol _ => [(false, .configuration)]
  | .setCr _ _ => [(false, .configuration), (true, .configuration)]
  | .setHyst _ _ => [(false, .configuration), (true, .configuration)]
  | .setFm _ _ => [(false, .configuration), (true, .configuration)]
  | .setTm _ _ => [(false, .configuration), (true, .configuration)]
  | .setPol _ _ => [(false, .configuration), (true, .configuration)]
  | .setcThigh _ _ => [(true, .tHigh)]
  | .setcTlow _ _ => [(true, .tLow)]

/-- The result codes an operation can end with (the table of R189). -/
def codes : Instr → List ResultCode
  | .encode _ => [.ok]
  | .decode _ => [.ok]
  | .maskedWrite _ _ _ => [.ok]
  | .rangeCheck _ => [.ok, .valueOutOfRange]
  | .init _ _ _ _ => [.ok, .invalidParameter]
  | .setcThigh _ _ => [.ok, .invalidParameter, .notInitialized, .busError, .valueOutOfRange]
  | .setcTlow _ _ => [.ok, .invalidParameter, .notInitialized, .busError, .valueOutOfRange]
  | _ => [.ok, .invalidParameter, .notInitialized, .busError]

/-- The handle reference of a request: the port `hnull` at 1 passes no handle (R95). -/
def passed (q : Request) : HandleRef :=
  if q.hnull then .null else .handle

/-- The operations of a list run one after another; a stop of one of them ends the run. -/
def runAll : List Instr → State → Host.Outcome State Fault Refusal
  | [], s => .next s
  | i :: rest, s =>
    match exec i s with
    | .next t => runAll rest t
    | .fault f => .fault f
    | .refused r => .refused r

/-- The operations that a caller with a handle gets through only when it is Ready: selectors 0x05 to 0x13, and a composite whose
operand passes the range check (R173, R177). -/
def needsReady (i : Instr) : Prop :=
  gatedHandle i = some .handle ∨ ∃ a x, composite i = some (a, .handle, x) ∧ Safety.inRange x

end Sys2Proof.Spec

open Sys2Proof Sys2Proof.Machine Sys2Proof.Safety Sys2Proof.Spec

/-! ## Reset, steps and requests -/

/-- After reset the handle is Uninitialized, the event history is empty, no request is pending, and the device registers hold
the open parameter DEV_RESET (R40, R41, R42, R200). The last clause names the model's constant for that parameter (log 4). -/
def Obligations.ResetLeavesHandleUninitialized : Prop :=
  State.reset.handle.init = false ∧ State.reset.history = [] ∧ State.reset.requests = [] ∧
    ∀ a, State.reset.dev.get a = Config.devReset a

/-- One operation is one step: the pending request leaves the queue and its operation runs on the rest of the state
(R25, D3, R187). -/
def Obligations.StepRunsDecodedRequest : Prop :=
  ∀ (s : State) (q : Request) (rest : List Issue) (i : Instr),
    s.requests = .one q :: rest → decode q = .ok i →
      step s = exec i { s with requests := rest }

/-- With no request pending the block waits: nothing changes (R200). -/
def Obligations.StepWaitsForRequest : Prop :=
  ∀ s : State, s.requests = [] → step s = .next s

/-- A request that names no defined operation is refused under the decoder's reason, and two overlapping requests are refused
(R99, R100, R114, R187). -/
def Obligations.StepRefusesUndefinedAndOverlapping : Prop :=
  (∀ (s : State) (q : Request) (rest : List Issue) (why : DecodeError),
    s.requests = .one q :: rest → decode q = .error why → step s = .refused (.rejectedRequest why)) ∧
  ∀ (s : State) (q q' : Request) (rest : List Issue),
    s.requests = .overlapping q q' :: rest → step s = .refused .overlappingRequests

/-! ## Encoding -/

/-- Every one of the 22 selectors of the operation table decodes to its operation (R94), with the operands read from their ports
(R95) and every member of the five enumerations from its code (R83), whatever the other ports carry. -/
def Obligations.SelectorsDecodeAsTabulated : Prop :=
  ∀ (q : Request) (x : ℚ),
    decode { q with op := 0b00000, x := .value x } = .ok (.encode x) ∧
    decode { q with op := 0b00001 } = .ok (.decode q.r) ∧
    decode { q with op := 0b00010 } = .ok (.maskedWrite q.cur q.newv q.mask) ∧
    decode { q with op := 0b00011, x := .value x } = .ok (.rangeCheck x) ∧
    decode { q with op := 0b00100 } = .ok (.init (passed q) q.bus q.devidx q.addr) ∧
    decode { q with op := 0b00101 } = .ok (.getTemp (passed q)) ∧
    decode { q with op := 0b00110 } = .ok (.getThigh (passed q)) ∧
    decode { q with op := 0b00111 } = .ok (.getTlow (passed q)) ∧
    decode { q with op := 0b01000, x := .value x } = .ok (.setThigh (passed q) x) ∧
    decode { q with op := 0b01001, x := .value x } = .ok (.setTlow (passed q) x) ∧
    decode { q with op := 0b01010 } = .ok (.getCr (passed q)) ∧
    decode { q with op := 0b01011 } = .ok (.getHyst (passed q)) ∧
    decode { q with op := 0b01100 } = .ok (.getFm (passed q)) ∧
    decode { q with op := 0b01101 } = .ok (.getTm (passed q)) ∧
    decode { q with op := 0b01110 } = .ok (.getPol (passed q)) ∧
    decode { q with op := 0b01111, e := 0b00 } = .ok (.setCr (passed q) .hz0_25) ∧
    decode { q with op := 0b01111, e := 0b01 } = .ok (.setCr (passed q) .hz1) ∧
    decode { q with op := 0b01111, e := 0b10 } = .ok (.setCr (passed q) .hz4) ∧
    decode { q with op := 0b01111, e := 0b11 } = .ok (.setCr (passed q) .hz16) ∧
    decode { q with op := 0b10000, e := 0b00 } = .ok (.setHyst (passed q) .c0) ∧
    decode { q with op := 0b10000, e := 0b01 } = .ok (.setHyst (passed q) .c1) ∧
    decode { q with op := 0b10000, e := 0b10 } = .ok (.setHyst (passed q) .c2) ∧
    decode { q with op := 0b10000, e := 0b11 } = .ok (.setHyst (passed q) .c4) ∧
    decode { q with op := 0b10001, e := 0b00 } = .ok (.setFm (passed q) .shutdown) ∧
    decode { q with op := 0b10001, e := 0b01 } = .ok (.setFm (passed q) .oneShot) ∧
    decode { q with op := 0b10001, e := 0b10 } = .ok (.setFm (passed q) .continuous) ∧
    decode { q with op := 0b10010, e := 0b00 } = .ok (.setTm (passed q) .comparator) ∧
    decode { q with op := 0b10010, e := 0b01 } = .ok (.setTm (passed q) .interrupt) ∧
    decode { q with op := 0b10011, e := 0b00 } = .ok (.setPol (passed q) .activeLow) ∧
    decode { q with op := 0b10011, e := 0b01 } = .ok (.setPol (passed q) .activeHigh) ∧
    decode { q with op := 0b10100, x := .value x } = .ok (.setcThigh (passed q) x) ∧
    decode { q with op := 0b10101, x := .value x } = .ok (.setcTlow (passed q) x)

/-- Decode and encode agree in both directions: every operation is read back from its request with every operand, and a
request decodes to an operation exactly when it is well formed and, with its unused ports at zero, is that operation's
request (R94, R95). -/
def Obligations.DecodeAndEncodeAgree : Prop :=
  (∀ i : Instr, decode (encode i) = .ok i) ∧
  ∀ (q : Request) (i : Instr),
    decode q = .ok i ↔ q.wellFormed = true ∧ q.canonical = encode i

/-- A port an operation does not use is ignored by it (R95). -/
def Obligations.UnusedPortsAreIgnored : Prop :=
  ∀ q : Request, decode q = decode q.canonical

/-- Exactly the defined requests decode, and each kind of undefined request is refused under its own name
(R99, R100, R114). -/
def Obligations.UndefinedRequestsAreRejectedByName : Prop :=
  ∀ q : Request,
    ((∃ i, decode q = .ok i) ↔ q.wellFormed = true) ∧
    (0x15 < q.op.toNat → decode q = .error (.unknownSelector q.op)) ∧
    (q.op = 0x11 ∧ q.e = 3 ∨ (q.op = 0x12 ∨ q.op = 0x13) ∧ 2 ≤ q.e.toNat →
      decode q = .error (.noSuchMember q.op q.e)) ∧
    (Request.usesCelsius q.op = true → q.x.hasValue = false →
      decode q = .error (.celsiusHasNoValue q.op))

/-! ## Register Codec -/

/-- ENCODE answers, for every Celsius value, the low 12 bits of `trunc(16 x)` shifted left by 4: sixteen times that integer,
taken modulo 2^16; nothing but the response changes (R115, R116). Beyond 16 bits of quotient this is the rule's unbounded
integer (D11, log 14). -/
def Obligations.EncodeAnswersTruncatedCode : Prop :=
  ∀ (x : ℚ) (s : State),
    exec (.encode x) s = .next (onlyResponse .ok (some (.word (BitVec.ofInt 16 (16 * truncSteps x)))) s)

/-- DECODE answers the signed 12-bit code in bits [15:4] times 0.0625; nothing but the response changes (R117, R118). -/
def Obligations.DecodeAnswersSignedCode : Prop :=
  ∀ (r : Word) (s : State),
    exec (.decode r) s =
      .next (onlyResponse .ok (some (.celsius (((r.extractLsb' 4 12).toInt : ℚ) / 16))) s)

/-- RANGE_CHECK answers Ok exactly from -75 to 127.9375, both inside, on the exact value; no data, nothing but the response
changes (R120). -/
def Obligations.RangeCheckIsExactAndInclusive : Prop :=
  ∀ (x : ℚ) (s : State),
    (-75 ≤ x ∧ x ≤ 127.9375 → exec (.rangeCheck x) s = .next (onlyResponse .ok none s)) ∧
    (x < -75 ∨ 127.9375 < x → exec (.rangeCheck x) s = .next (onlyResponse .valueOutOfRange none s))

/-- MASKED_WRITE answers `(cur & ~mask) | newv` with Ok and touches no state; under the precondition every bit outside the
mask is preserved and the field takes the new value; the corner cases of the rule (R122). -/
def Obligations.MaskedWriteReplacesMaskedBits : Prop :=
  ∀ (cur newv mask : Word) (s : State), ∃ out : Word,
    exec (.maskedWrite cur newv mask) s = .next (onlyResponse .ok (some (.word out)) s) ∧
    out = (cur &&& ~~~mask) ||| newv ∧
    (newv &&& ~~~mask = 0 → out &&& ~~~mask = cur &&& ~~~mask ∧ out &&& mask = newv) ∧
    (mask = 0 → newv = 0 → out = cur) ∧
    (mask = 0xFFFF → out = newv) ∧
    (newv = cur &&& mask → out = cur) ∧
    (cur = 0x60A0 → newv = 0x0200 → mask = 0x0300 → out = 0x62A0)

/-- Outside the mask a bit of the new value can only set a bit of the result, never clear one: with the precondition broken, each
such bit is the old one or-ed with the stray one (R124). -/
def Obligations.StrayBitsAreOnlySet : Prop :=
  ∀ (cur newv mask : Word) (n : Nat), n < 16 → mask.getLsbD n = false →
    (maskedWrite cur newv mask).getLsbD n = (cur.getLsbD n || newv.getLsbD n)

/-- For the five read/write fields and every code: the placed code leaks no bit, the masked write preserves every bit outside
the field and the field then reads as the code (R91, R92, R123). -/
def Obligations.FieldUpdatePreservesOtherBits : Prop :=
  ∀ (f : Field) (code : Nat) (cur : Word),
    f ≠ .fh → f ≠ .fl → code < 2 ^ fieldWidth f →
      placeField f code &&& ~~~fieldMask f = 0 ∧
      updateField f code cur &&& ~~~fieldMask f = cur &&& ~~~fieldMask f ∧
      (extractField f (updateField f code cur)).toNat = code

/-- Round trip from Celsius: inside the checked range a value comes back as its truncation to a multiple of 0.0625, less than
one step away and never farther from zero (R119 a). -/
def Obligations.RoundTripTruncatesTowardZero : Prop :=
  ∀ x : ℚ, inRange x →
    decodeCelsius (encodeCelsius x) = (truncSteps x : ℚ) / 16 ∧
    |x - decodeCelsius (encodeCelsius x)| < 1 / 16 ∧
    |decodeCelsius (encodeCelsius x)| ≤ |x|

/-- Round trip from a register value: encoding what was decoded gives the value with bits [3:0] cleared (R119 b). -/
def Obligations.RoundTripClearsReservedBits : Prop :=
  ∀ r : Word, encodeCelsius (decodeCelsius r) = r &&& 0xFFF0

/-- The one-step bound of the round trip holds exactly strictly between -128.0625 and 128 (R119 d). -/
def Obligations.RoundTripBoundHoldsExactly : Prop :=
  ∀ x : ℚ, |x - decodeCelsius (encodeCelsius x)| < 1 / 16 ↔ -2049 / 16 < x ∧ x < 128

/-- The register values that pass the range check are exactly the codes -1200 to 2047 shifted left by 4, and they decode into
the range (R82, R121). -/
def Obligations.RangeCheckedValuesAreTheListedOnes : Prop :=
  (∀ x : ℚ, rangeCheck x = .ok →
    encodeCelsius x = BitVec.ofInt 16 (16 * truncSteps x) ∧
    -1200 ≤ truncSteps x ∧ truncSteps x ≤ 2047 ∧
    inRange (decodeCelsius (encodeCelsius x))) ∧
  ∀ k : ℤ, -1200 ≤ k → k ≤ 2047 →
    ∃ x : ℚ, rangeCheck x = .ok ∧ encodeCelsius x = BitVec.ofInt 16 (16 * k)

/-- Bits [3:0] of format T: ENCODE writes them as 0, DECODE ignores them, neither ever faults, and a value read with non-zero
bits [3:0] decodes as with those bits cleared (R97). -/
def Obligations.ReservedTemperatureBits : Prop :=
  (∀ (x : ℚ) (s : State), ∃ v : Word,
    exec (.encode x) s = .next (onlyResponse .ok (some (.word v)) s) ∧ v &&& 0x000F = 0) ∧
  (∀ (r : Word) (s : State), ∃ y : ℚ,
    exec (.decode r) s = .next (onlyResponse .ok (some (.celsius y)) s) ∧
    exec (.decode (r &&& 0xFFF0)) s = .next (onlyResponse .ok (some (.celsius y)) s)) ∧
  ∀ b0 b1 : Byte, decodeCelsius (b0 ++ b1) = decodeCelsius (b0 ++ (b1 &&& 0xF0))

/-- The two ways DOC0 writes the 12-bit negation are one function, `(4096 - m) mod 4096`, its own inverse (R112). -/
def Obligations.TwelveBitNegation : Prop :=
  ∀ m : Code, neg12 m = inv12 m ∧ (neg12 m).toNat = (4096 - m.toNat) % 4096 ∧ neg12 (neg12 m) = m

/-! ## INIT -/

/-- INIT with a handle and a bus writes the three fields of the handle, whatever they held and whatever the device index, and
answers Ok; nothing else changes (R132, D14, D15). -/
def Obligations.InitPopulatesHandle : Prop :=
  ∀ (b : BusRef) (d : DevIdx) (a : DevAddr) (s : State),
    exec (.init .handle (some b) d a) s =
      .next { s with
        handle := { bus := b, addr := a, init := true }
        response := some { status := .ok, data := none } }

/-! ## Bytes on the wire and the device -/

/-- Byte order: a read that answers `ok(b0, b1)` gives the value `(b0 << 8) | b1`; a write of `v` carries `v[15:8]` first and
`v[7:0]` second (R54). -/
def Obligations.BytesTravelBigEndian : Prop :=
  (∀ (a : RegAddr) (b0 b1 : Byte) (k : Word → State → Out) (s : State),
    readAnswer a s = some (.ok b0 b1) →
      ∃ v : Word, v.toNat = b0.toNat * 256 + b1.toNat ∧
        readReg a k s = k v (afterRead a (.ok b0 b1) s)) ∧
  ∀ (a : RegAddr) (v : Word) (ans : WriteAnswer) (s : State), ∃ b0 b1 : Byte,
    b0.toNat = v.toNat / 256 ∧ b1.toNat = v.toNat % 256 ∧
    (afterWrite a v ans s).history = s.history ++ [.wr s.handle.bus s.handle.addr a b0 b1 ans]

/-- Who answers a read. The environment replies with the next scripted reply, or with a free answer when none is scripted (log 6).
Under the oracle the block sees that reply, whatever was written before; under DEV_STORE an `ok` carries thresholds as held, the
read/write fields of the Configuration register as held with the other bits drawn, and the temperature drawn; an error is an
error under both (R58). That DEV_STORE answers so at any bus and address is the model's choice (log 19). -/
def Obligations.DeviceAnswersReads : Prop :=
  ∀ (a : RegAddr) (s : State),
    (∀ r rest, s.reads = r :: rest → readReply a s = r) ∧
    (s.reads = [] →
      readReply a s = .returns (Config.freeRead s.handle.bus s.handle.addr a s.draws)) ∧
    (readReply a s = .returns .error → readAnswer a s = some .error) ∧
    ∀ b0 b1 : Byte, readReply a s = .returns (.ok b0 b1) →
      (s.device = .oracle → readAnswer a s = some (.ok b0 b1)) ∧
      (s.device = .devStore → ∃ c0 c1 : Byte, readAnswer a s = some (.ok c0 c1) ∧
        (a = .temperature → c0 ++ c1 = b0 ++ b1) ∧
        (a = .configuration →
          c0 ++ c1 = (s.dev.configuration &&& 0x67B0) ||| ((b0 ++ b1) &&& 0x984F)) ∧
        (a = .tLow → c0 ++ c1 = s.dev.tLow) ∧
        (a = .tHigh → c0 ++ c1 = s.dev.tHigh))

/-- What a write does to the register: after `ok` it holds the value written, after `error` it holds what the environment left
there, any value, and no other register changes (R58, R59, U4). The register is the one in the register file of DEV_STORE, which
the model keeps under the oracle too (log 9) and at any bus and address (log 19). -/
def Obligations.WritesReachTheDevice : Prop :=
  ∀ (a : RegAddr) (v : Word) (s : State),
    (writeAnswer a v s = some .ok → (afterWrite a v .ok s).dev.get a = v) ∧
    (∀ left rest, s.writes = .error left :: rest →
      writeAnswer a v s = some .error ∧ (afterWrite a v .error s).dev.get a = left) ∧
    ∀ (b : RegAddr) (ans : WriteAnswer), b ≠ a → (afterWrite a v ans s).dev.get b = s.dev.get b

/-- A call of the collaborator advances only the environment's own fields: one scripted reply is used up, or one free answer is
counted. These fields are the model's own (log 6). -/
def Obligations.CallsAdvanceOnlyTheEnvironment : Prop :=
  ∀ s : State,
    afterReadReply s =
      { s with reads := s.reads.tail, draws := if s.reads = [] then s.draws + 1 else s.draws } ∧
    afterWriteReply s =
      { s with writes := s.writes.tail, draws := if s.writes = [] then s.draws + 1 else s.draws }

/-! ## Temperature and thresholds -/

/-- GET_TEMP, GET_THIGH and GET_TLOW: no handle, Uninitialized, a failed read, and a read of two bytes, whose bits [15:4] are
answered with Ok as the signed code times 0.0625, without a range check and without regard to bits [3:0]; one read of the
operation's register is recorded, and nothing else changes (R133, R134, R135). -/
def Obligations.TemperatureReadsAnswerDecodedValue : Prop :=
  ∀ (i : Instr) (a : RegAddr) (h : HandleRef) (s : State),
    temperatureRead i = some (a, h) →
      (h = .null → exec i s = .next (onlyResponse .invalidParameter none s)) ∧
      (h = .handle → s.handle.init = false → exec i s = .next (onlyResponse .notInitialized none s)) ∧
      (h = .handle → s.handle.init = true → readAnswer a s = some .error →
        exec i s = .next (demoted (readEnds a .error .busError none s))) ∧
      ∀ b0 b1 : Byte, h = .handle → s.handle.init = true → readAnswer a s = some (.ok b0 b1) →
        exec i s = .next (readEnds a (.ok b0 b1) .ok
          (some (.celsius ((((b0 ++ b1 : BitVec (8 + 8)).extractLsb' 4 12).toInt : ℚ) / 16))) s)

/-- SET_THIGH and SET_TLOW: no handle, Uninitialized, a failed write, and a write that succeeds; the value sent is
`trunc(16 x)` modulo 4096 shifted left by 4, for every x, without a range check; one write to the operation's register is
recorded, and nothing else changes (R136, R137). That the field `dev` then holds the written value, under either device and at any bus and
address, is the model's choice (log 9, log 19). -/
def Obligations.ThresholdWritesSendEncodedValue : Prop :=
  ∀ (i : Instr) (a : RegAddr) (h : HandleRef) (x : ℚ) (s : State),
    thresholdWrite i = some (a, h, x) →
      (h = .null → exec i s = .next (onlyResponse .invalidParameter none s)) ∧
      (h = .handle → s.handle.init = false → exec i s = .next (onlyResponse .notInitialized none s)) ∧
      ∀ v : Word, v = BitVec.ofInt 16 (16 * truncSteps x) → h = .handle → s.handle.init = true →
        (writeAnswer a v s = some .error → ∃ held : Word,
          exec i s = .next (demoted (writeEnds a v held .error .busError s))) ∧
        (writeAnswer a v s = some .ok → exec i s = .next (writeEnds a v v .ok .ok s))

/-- SETC_THIGH and SETC_TLOW inside the range, on a Ready handle, with a write that succeeds: the encoded value is written, its
bytes are one of the listed codes, and the answer is Ok (R138, R139, R82). The composites are the spec's own (D8).
That the field `dev` then holds the written value, under either device and at any bus and
address, is the model's choice (log 9, log 19). -/
def Obligations.CheckedWritesSendEncodedValue : Prop :=
  ∀ (i : Instr) (a : RegAddr) (x : ℚ) (s : State),
    composite i = some (a, .handle, x) → inRange x → s.handle.init = true →
      ∀ v : Word, v = BitVec.ofInt 16 (16 * truncSteps x) → writeAnswer a v s = some .ok →
        exec i s = .next (writeEnds a v v .ok .ok s)

/-- Out of range, SETC_THIGH and SETC_TLOW answer ValueOutOfRange before every other check, issue no transaction and change
nothing else (R138, R139, R177, D8). -/
def Obligations.OutOfRangeHasPriority : Prop :=
  ∀ (i : Instr) (a : RegAddr) (h : HandleRef) (x : ℚ) (s : State),
    composite i = some (a, h, x) → ¬ inRange x →
      exec i s = .next (onlyResponse .valueOutOfRange none s)

/-- In range, SETC_THIGH is SET_THIGH and SETC_TLOW is SET_TLOW, whatever the handle and whatever the collaborator does
(R103, D8). -/
def Obligations.CheckedWriteInRangeIsPlainWrite : Prop :=
  ∀ (h : HandleRef) (x : ℚ) (s : State), inRange x →
    exec (.setcThigh h x) s = exec (.setThigh h x) s ∧
    exec (.setcTlow h x) s = exec (.setTlow h x) s

/-! ## Configuration fields -/

/-- The five GET operations on fields: no handle, Uninitialized, a failed read, and a read of two bytes, whose bits at the
field's positions name the answer (functional mode 3 answers Continuous); one read of 0x01 is recorded, nothing is written
(R151 to R155). -/
def Obligations.FieldReadsAnswerMember : Prop :=
  ∀ (i : Instr) (h : HandleRef) (meaning : Byte → Byte → Data) (s : State),
    fieldRead i = some (h, meaning) →
      (h = .null → exec i s = .next (onlyResponse .invalidParameter none s)) ∧
      (h = .handle → s.handle.init = false → exec i s = .next (onlyResponse .notInitialized none s)) ∧
      (h = .handle → s.handle.init = true → readAnswer .configuration s = some .error →
        exec i s = .next (demoted (readEnds .configuration .error .busError none s))) ∧
      ∀ b0 b1 : Byte,
        h = .handle → s.handle.init = true → readAnswer .configuration s = some (.ok b0 b1) →
          exec i s = .next (readEnds .configuration (.ok b0 b1) .ok (some (meaning b0 b1)) s)

/-- The five SET operations on fields: no handle, Uninitialized, a failed read (no write is then issued), a failed write, and
both halves succeeding; the value written is the value read with the field replaced, and it is written even if it is the same
(R158 to R162). That the field `dev` then holds the written value, under either device and at any bus and
address, is the model's choice (log 9, log 19). -/
def Obligations.FieldWritesReadModifyWrite : Prop :=
  ∀ (i : Instr) (h : HandleRef) (keep put : Word) (s : State),
    fieldWrite i = some (h, keep, put) →
      (h = .null → exec i s = .next (onlyResponse .invalidParameter none s)) ∧
      (h = .handle → s.handle.init = false → exec i s = .next (onlyResponse .notInitialized none s)) ∧
      (h = .handle → s.handle.init = true → readAnswer .configuration s = some .error →
        exec i s = .next (demoted (readEnds .configuration .error .busError none s))) ∧
      ∀ (b0 b1 : Byte) (out : Word),
        h = .handle → s.handle.init = true → readAnswer .configuration s = some (.ok b0 b1) →
        out = ((b0 ++ b1) &&& keep) ||| put →
          (writeAnswer .configuration out (readHalf b0 b1 s) = some .error →
            ∃ held : Word, exec i s =
              .next (demoted (writeEnds .configuration out held .error .busError (readHalf b0 b1 s)))) ∧
          (writeAnswer .configuration out (readHalf b0 b1 s) = some .ok →
            exec i s = .next (writeEnds .configuration out out .ok .ok (readHalf b0 b1 s)))

/-! ## Result codes, priority and the error path -/

/-- InvalidParameter: every operation with selector 0x04 to 0x13 without a handle, INIT also without a bus, the composites
without a handle once their range check has passed; never the pure operations; no state changes, no transaction (R172). -/
def Obligations.NullHandleAnswersInvalidParameter : Prop :=
  (∀ (i : Instr) (s : State), gatedHandle i = some .null →
    exec i s = .next (onlyResponse .invalidParameter none s)) ∧
  (∀ (h : HandleRef) (bus : Option BusRef) (d : DevIdx) (a : DevAddr) (s : State),
    h = .null ∨ bus = none →
      exec (.init h bus d a) s = .next (onlyResponse .invalidParameter none s)) ∧
  (∀ (i : Instr) (a : RegAddr) (x : ℚ) (s : State), composite i = some (a, .null, x) →
    (inRange x → exec i s = .next (onlyResponse .invalidParameter none s)) ∧
    (¬ inRange x → exec i s = .next (onlyResponse .valueOutOfRange none s))) ∧
  ∀ (i : Instr) (s : State), isPure i = true → ∃ c d,
    exec i s = .next (onlyResponse c d s) ∧ c ≠ .invalidParameter

/-- NotInitialized: every operation but INIT with a handle that is not Ready, without a transaction or a change of state; and
the handle stays so until an INIT (R173). -/
def Obligations.UninitializedHandleFailsFast : Prop :=
  (∀ (i : Instr) (s : State), gatedHandle i = some .handle → s.handle.init = false →
    exec i s = .next (onlyResponse .notInitialized none s)) ∧
  (∀ (i : Instr) (a : RegAddr) (x : ℚ) (s : State), composite i = some (a, .handle, x) → inRange x →
    s.handle.init = false → exec i s = .next (onlyResponse .notInitialized none s)) ∧
  ∀ (i : Instr) (s t : State), isInit i = false → s.handle.init = false → exec i s = .next t →
    t.handle = s.handle

/-- PROLOGUE: the null check before the state check, and a transaction only after both have passed (R176). -/
def Obligations.PrologueChecksInOrder : Prop :=
  ∀ (i : Instr) (h : HandleRef) (s : State), gatedHandle i = some h →
    (h = .null → exec i s = .next (onlyResponse .invalidParameter none s)) ∧
    (h = .handle → s.handle.init = false → exec i s = .next (onlyResponse .notInitialized none s)) ∧
    ∀ t, exec i s = .next t → t.history ≠ s.history → h = .handle ∧ s.handle.init = true

/-- Only BusError and a successful INIT change the handle: BusError clears the flag alone, every other failure changes nothing
but the response, and an Ok of any operation but INIT leaves the handle (R174, R178, R186). -/
def Obligations.OnlyBusErrorDemotes : Prop :=
  ∀ (i : Instr) (s t : State), exec i s = .next t → ∃ r : Response,
    t.response = some r ∧
    (r.status = .busError → t.handle = { s.handle with init := false } ∧ s.handle.init = true) ∧
    (r.status ≠ .busError → r.status ≠ .ok → t = onlyResponse r.status none s) ∧
    (r.status = .ok → isInit i = false → t.handle = s.handle)

/-- After a BusError and any list of operations with no successful INIT (one with a handle and a bus) among them, nothing but the
response has changed since the BusError; every operation with selector 0x05 to 0x13, and a composite in range, still answers
NotInitialized to a caller that passes the handle, without a transaction; and an INIT with a handle and a bus makes it Ready
again (R173, R179, R186, R211). -/
def Obligations.BusErrorLastsUntilInit : Prop :=
  ∀ (i : Instr) (s t : State), exec i s = .next t →
    t.response = some { status := .busError, data := none } →
      ∀ js : List Instr, (∀ b d a, Instr.init .handle (some b) d a ∉ js) → ∃ u,
        runAll js t = .next u ∧ (∃ resp, u = { t with response := resp }) ∧
        (∀ j : Instr, needsReady j → exec j u = .next (onlyResponse .notInitialized none u)) ∧
        ∀ (b : BusRef) (d : DevIdx) (a : DevAddr), ∃ w,
          exec (.init .handle (some b) d a) u = .next w ∧ w.handle = { bus := b, addr := a, init := true }

/-- The flag goes from false to true only by INIT with a handle and a bus, and from true to false only with BusError
(R24, R186). -/
def Obligations.HandleStateMachine : Prop :=
  ∀ (i : Instr) (s t : State), exec i s = .next t →
    (s.handle.init = false → t.handle.init = true →
      ∃ b d a, i = .init .handle (some b) d a ∧ t.handle = { bus := b, addr := a, init := true }) ∧
    (s.handle.init = true → t.handle.init = false →
      t.response = some { status := .busError, data := none })

/-- Every operation that ends, ends with one of the result codes its row lists (R170, R189). -/
def Obligations.ResultCodesPerOperation : Prop :=
  ∀ (i : Instr) (s t : State), exec i s = .next t →
    ∃ r : Response, t.response = some r ∧ r.status ∈ codes i

/-- The block never refuses an operation and never traps: it stops only where a scripted call of the collaborator never returns
(R178; U15, log 7). -/
def Obligations.OnlyUnreturnedCallStops : Prop :=
  ∀ (i : Instr) (s : State),
    (∀ r, exec i s ≠ .refused r) ∧
    (∀ f, exec i s = .fault f → .never ∈ s.reads ∨ .never ∈ s.writes)

/-- Every read or write of an operation, if its call never returns, leaves the operation stuck under that name: the read of a
temperature-format register, the read of a GET on a field, the read half and the write half of a SET on a field, and the write
of SET_THIGH, SET_TLOW and, in range, of SETC_THIGH and SETC_TLOW (U15, R215, log 7). -/
def Obligations.UnreturnedCallIsStuck : Prop :=
  ∀ s : State, s.handle.init = true →
    (∀ (i : Instr) (a : RegAddr), temperatureRead i = some (a, .handle) → readAnswer a s = none →
      exec i s = .fault .collaboratorNeverReturns) ∧
    (∀ (i : Instr) (meaning : Byte → Byte → Data), fieldRead i = some (.handle, meaning) →
      readAnswer .configuration s = none → exec i s = .fault .collaboratorNeverReturns) ∧
    (∀ (i : Instr) (keep put : Word), fieldWrite i = some (.handle, keep, put) →
      (readAnswer .configuration s = none → exec i s = .fault .collaboratorNeverReturns) ∧
      ∀ (b0 b1 : Byte) (out : Word), readAnswer .configuration s = some (.ok b0 b1) →
        out = ((b0 ++ b1) &&& keep) ||| put →
        writeAnswer .configuration out (readHalf b0 b1 s) = none →
          exec i s = .fault .collaboratorNeverReturns) ∧
    ∀ (i : Instr) (a : RegAddr) (x : ℚ) (v : Word),
      thresholdWrite i = some (a, .handle, x) ∨ (composite i = some (a, .handle, x) ∧ inRange x) →
      v = BitVec.ofInt 16 (16 * truncSteps x) → writeAnswer a v s = none →
        exec i s = .fault .collaboratorNeverReturns

/-! ## Transactions, frames and what is not read -/

/-- The transactions of an operation are its row of the table, in order: all of them when it ends with Ok, none when it ends in
its prologue or its range check, and none after one that answered `error` (R60). -/
def Obligations.TransactionsPerOperation : Prop :=
  ∀ (i : Instr) (s t : State), exec i s = .next t → ∃ es r,
    t.history = s.history ++ es ∧ t.response = some r ∧
    es.map shape <+: transactions i ∧
    (r.status = .ok → es.map shape = transactions i ∧ es.all answeredOk = true) ∧
    (r.status = .busError → ∃ e ∈ es.getLast?, answeredOk e = false ∧ es.dropLast.all answeredOk = true) ∧
    (r.status ≠ .ok → r.status ≠ .busError → es = [])

/-- One step, unless it resets the block, adds at most two transactions to the history and takes none away, each on the bus and
at the device address the handle held (R22, R23, R39, R60, R61, R63). -/
def Obligations.StepAppendsTransactionsOfTheHandle : Prop :=
  ∀ s t : State, (∀ rest, s.requests ≠ .blockReset :: rest) → step s = .next t → ∃ es : List Event,
    t.history = s.history ++ es ∧ es.length ≤ 2 ∧
    ∀ e ∈ es,
      (∃ a ans, e = .rd s.handle.bus s.handle.addr a ans) ∨
      (∃ a b0 b1 ans, a ≠ .temperature ∧ e = .wr s.handle.bus s.handle.addr a b0 b1 ans)

/-- What an operation leaves: the caller's queue and the device kind always; the bus reference and the address but for INIT;
in the register file of DEV_STORE, every register it does not write (R21, R60, R61). What the sensor changes by itself is drawn on each
read and does not show in that file (log 9, log 15). -/
def Obligations.OperationsLeaveTheRest : Prop :=
  ∀ (i : Instr) (s t : State), exec i s = .next t →
    t.requests = s.requests ∧ t.device = s.device ∧
    (isInit i = false → t.handle.bus = s.handle.bus ∧ t.handle.addr = s.handle.addr) ∧
    ∀ a : RegAddr, (true, a) ∉ transactions i → t.dev.get a = s.dev.get a

/-- No operation reads the response ports or the event history: with others in their place every outcome is the same, with the
same transactions appended and the same response (R20, R63). -/
def Obligations.HistoryAndResponseAreNotRead : Prop :=
  ∀ (i : Instr) (s t : State) (hist : List Event) (resp : Option Response), exec i s = .next t →
    ∃ es, t.history = s.history ++ es ∧
      exec i { s with history := hist, response := resp } = .next { t with history := hist ++ es }

/-- While the handle is Uninitialized, no operation but INIT reads its bus reference or its address (R40, R178). -/
def Obligations.UninitializedFieldsAreNotRead : Prop :=
  ∀ (i : Instr) (s t : State) (b : BusRef) (a : DevAddr),
    isInit i = false → s.handle.init = false → exec i s = .next t →
      exec i { s with handle := { bus := b, addr := a, init := false } } =
        .next { t with handle := { bus := b, addr := a, init := false } }

/-! ## Under DEV_STORE -/

/-- With the device DEV_STORE as a premise: a threshold in the range, written successfully, reads back as its truncation
(R58, R119, the end-to-end property of DOC0 section 8). DEV_STORE is the spec's own choice (D9, log 5); that
it is reached at any bus and address is the model's (log 19). -/
def Obligations.StoredThresholdReadsBack : Prop :=
  ∀ (a : RegAddr) (set get : Instr) (x : ℚ) (s : State),
    (set = .setThigh .handle x ∧ get = .getThigh .handle ∧ a = .tHigh) ∨
      (set = .setTlow .handle x ∧ get = .getTlow .handle ∧ a = .tLow) →
    s.device = .devStore → s.handle.init = true → inRange x →
    writeAnswer a (encodeCelsius x) s = some .ok →
      ∃ t, exec set s = .next t ∧
        ∀ b0 b1 : Byte, readReply a t = .returns (.ok b0 b1) →
          ∃ u, exec get t = .next u ∧
            u.response = some { status := .ok, data := some (.celsius ((truncSteps x : ℚ) / 16)) }

/-- With the device DEV_STORE as a premise: a field set successfully reads back as the member set, whatever the device draws for
the other bits (R58, R150, R157). DEV_STORE is the spec's own choice (D9, log 5); that it is reached at any
bus and address is the model's (log 19). -/
def Obligations.StoredFieldReadsBack : Prop :=
  ∀ (set get : Instr) (d : Data) (s t : State),
    setThenGet set = some (get, d) → s.device = .devStore → exec set s = .next t →
    t.response = some { status := .ok, data := none } →
      ∀ b0 b1 : Byte, readReply .configuration t = .returns (.ok b0 b1) →
        ∃ u, exec get t = .next u ∧ u.response = some { status := .ok, data := some d }

/-! ## Invariants of every step -/

/-- Reset meets the invariant. -/
def Obligations.ResetMeetsInvariant : Prop :=
  Inv State.reset

/-- Every step keeps the invariant, from every state that meets it: the response carries data only with Ok (R95); no
transaction writes Temperature and a threshold is written with bits [3:0] zero (R61, R97); a register whose last write
answered Ok holds the value written in the register file of DEV_STORE (R58, R63). That file is updated under the oracle too, where
no read answers from it, and at any bus and address: the clause says nothing of what a sensor behind the oracle, or at an address
other than 0x48, holds (log 9, log 15, log 19). -/
def Obligations.StepKeepsInvariant : Prop :=
  ∀ s t : State, Inv s → step s = .next t → Inv t

/-- While the environment keeps to its part (one defined request at a time, every call returns), no step faults or is refused,
the environment's remaining inputs still keep to it, and a step with a request pending runs that request's operation to its
end, with a result code of its row (R170, R189, R205, R215). -/
def Obligations.SafeStepAlwaysCompletes : Prop :=
  ∀ s : State, EnvironmentSafe s → ∃ t, step s = .next t ∧ EnvironmentSafe t ∧
    ∀ (q : Request) (rest : List Issue), s.requests = .one q :: rest →
      ∃ (i : Instr) (r : Response), decode q = .ok i ∧ t.response = some r ∧ r.status ∈ codes i

/-! ## Resets of the block and of the sensor -/

/-- A step that resets the block leaves it Uninitialized, with an empty event history and no response, and keeps the device
registers and every other part of the environment (R41, R200, R201). `H.bus` and `H.addr` have no value then, so nothing is
said of them. That a reset comes as an act in the list of requests, and that the response ports are cleared, is the model's
choice (log 13, log 18). -/
def Obligations.BlockResetKeepsTheSensor : Prop :=
  ∀ (s : State) (rest : List Issue), s.requests = .blockReset :: rest → ∃ t,
    step s = .next t ∧
    t.handle.init = false ∧ t.history = [] ∧ t.response = none ∧
    t.dev = s.dev ∧ t.device = s.device ∧ t.reads = s.reads ∧ t.writes = s.writes ∧ t.requests = rest

/-- A reset of the block and then an INIT with a handle and a bus: the handle is Ready with INIT's operands, and the sensor is as
the last writes left it; under DEV_STORE a threshold read then answers the value held before the reset (R201; DEV_STORE is
the spec's own choice, D9, log 5; the form of a reset, and that the sensor is found at whatever bus and address INIT passes, are
the model's, log 18 and log 19). -/
def Obligations.ResetThenInitFindsTheLastWrites : Prop :=
  ∀ (s : State) (q : Request) (rest : List Issue) (b : BusRef) (d : DevIdx) (a : DevAddr),
    s.requests = .blockReset :: .one q :: rest → decode q = .ok (.init .handle (some b) d a) → ∃ t u,
      step s = .next t ∧ step t = .next u ∧
      u.handle = { bus := b, addr := a, init := true } ∧ u.dev = s.dev ∧ u.requests = rest ∧
      ∀ b0 b1 : Byte, s.device = .devStore →
        (readReply .tHigh u = .returns (.ok b0 b1) → ∃ c0 c1 : Byte,
          readAnswer .tHigh u = some (.ok c0 c1) ∧ c0 ++ c1 = s.dev.tHigh) ∧
        (readReply .tLow u = .returns (.ok b0 b1) → ∃ c0 c1 : Byte,
          readAnswer .tLow u = some (.ok c0 c1) ∧ c0 ++ c1 = s.dev.tLow)

/-- A reset of the sensor puts DEV_RESET into its registers and leaves the block as it is, handle, history and response (R41).
The last clause names the model's constant for that parameter (log 4); that no step resets the sensor is log 18. -/
def Obligations.SensorResetKeepsTheBlock : Prop :=
  ∀ s : State,
    s.sensorReset.handle = s.handle ∧ s.sensorReset.history = s.history ∧
    s.sensorReset.response = s.response ∧ ∀ a, s.sensorReset.dev.get a = Config.devReset a
end

