-- ==== Sys2Proof/Laws/Operands.lean ====
section
/-!
SUPPORT. Laws of the pure operand arithmetic: bytes on the wire, twelve-bit negation, the masks of the field table.
-/

namespace Sys2Proof.Machine

theorem joinBytes_toNat (b0 b1 : Byte) : (joinBytes b0 b1).toNat = b0.toNat * 256 + b1.toNat := by
  show (b0 ++ b1 : BitVec (8 + 8)).toNat = _
  rw [BitVec.toNat_append, ← Nat.shiftLeft_add_eq_or_of_lt b1.isLt, Nat.shiftLeft_eq]

theorem firstByte_toNat (v : Word) : (firstByte v).toNat = v.toNat / 256 := by
  have h := v.isLt
  simp only [firstByte, BitVec.extractLsb'_toNat, Nat.shiftRight_eq_div_pow]
  omega

theorem secondByte_toNat (v : Word) : (secondByte v).toNat = v.toNat % 256 := by
  simp [secondByte, BitVec.extractLsb'_toNat]

/-- The two bytes of a value are the value: nothing is lost on the wire (R54). -/
@[simp] theorem joinBytes_first_second (v : Word) : joinBytes (firstByte v) (secondByte v) = v := by
  apply BitVec.eq_of_toNat_eq
  rw [joinBytes_toNat, firstByte_toNat, secondByte_toNat]
  omega

@[simp] theorem firstByte_join (b0 b1 : Byte) : firstByte (joinBytes b0 b1) = b0 := by
  apply BitVec.eq_of_toNat_eq
  rw [firstByte_toNat, joinBytes_toNat]
  have := b1.isLt
  omega

@[simp] theorem secondByte_join (b0 b1 : Byte) : secondByte (joinBytes b0 b1) = b1 := by
  apply BitVec.eq_of_toNat_eq
  rw [secondByte_toNat, joinBytes_toNat]
  have := b1.isLt
  omega

/-- ENCODE's negation is negation modulo 4096 (R112). -/
theorem neg12_eq (m : Code) : neg12 m = -m := by
  unfold neg12; bv_omega

/-- DECODE's negation is negation modulo 4096 (R112). -/
theorem inv12_eq (c : Code) : inv12 c = -c := by
  unfold inv12; bv_omega

/-- The upper bound is 2047/16 (R5, R7). -/
theorem tMax_eq : tMax = 2047 / 16 := by decide +kernel

/-- Each mask is its field's width of ones at the field's shift (R28). -/
theorem fieldMask_eq (f : Field) :
    fieldMask f = BitVec.ofNat 16 ((2 ^ fieldWidth f - 1) <<< fieldShift f) := by
  cases f <;> decide

/-- The masks are pairwise disjoint (R28). -/
theorem fieldMask_disjoint {f g : Field} (h : f ≠ g) : fieldMask f &&& fieldMask g = 0 := by
  cases f <;> cases g <;> first | decide | exact absurd rfl h

/-- No field covers an unassigned bit (R28, R35). -/
theorem fieldMask_unassigned (f : Field) : fieldMask f &&& unassignedMask = 0 := by
  cases f <;> decide

end Sys2Proof.Machine
end

