-- ==== Sys2Proof/Laws/State.lean ====
section
/-!
SUPPORT. One lemma per field per update of the state, each true by unfolding, so that no later proof unfolds a record update;
and the laws of reading and writing the device registers.
-/

namespace Sys2Proof.Machine

/-! ### `State.respond` -/

@[simp] theorem State.respond_handle (s : State) (c : ResultCode) (d : Option Data) :
    (s.respond c d).handle = s.handle := rfl

@[simp] theorem State.respond_dev (s : State) (c : ResultCode) (d : Option Data) :
    (s.respond c d).dev = s.dev := rfl

@[simp] theorem State.respond_device (s : State) (c : ResultCode) (d : Option Data) :
    (s.respond c d).device = s.device := rfl

@[simp] theorem State.respond_history (s : State) (c : ResultCode) (d : Option Data) :
    (s.respond c d).history = s.history := rfl

@[simp] theorem State.respond_requests (s : State) (c : ResultCode) (d : Option Data) :
    (s.respond c d).requests = s.requests := rfl

@[simp] theorem State.respond_reads (s : State) (c : ResultCode) (d : Option Data) :
    (s.respond c d).reads = s.reads := rfl

@[simp] theorem State.respond_writes (s : State) (c : ResultCode) (d : Option Data) :
    (s.respond c d).writes = s.writes := rfl

@[simp] theorem State.respond_draws (s : State) (c : ResultCode) (d : Option Data) :
    (s.respond c d).draws = s.draws := rfl

@[simp] theorem State.respond_response (s : State) (c : ResultCode) (d : Option Data) :
    (s.respond c d).response = some { status := c, data := d } := rfl

/-! ### `State.record` -/

@[simp] theorem State.record_handle (s : State) (e : Event) :
    (s.record e).handle = s.handle := rfl

@[simp] theorem State.record_dev (s : State) (e : Event) :
    (s.record e).dev = s.dev := rfl

@[simp] theorem State.record_device (s : State) (e : Event) :
    (s.record e).device = s.device := rfl

@[simp] theorem State.record_history (s : State) (e : Event) :
    (s.record e).history = s.history ++ [e] := rfl

@[simp] theorem State.record_requests (s : State) (e : Event) :
    (s.record e).requests = s.requests := rfl

@[simp] theorem State.record_reads (s : State) (e : Event) :
    (s.record e).reads = s.reads := rfl

@[simp] theorem State.record_writes (s : State) (e : Event) :
    (s.record e).writes = s.writes := rfl

@[simp] theorem State.record_draws (s : State) (e : Event) :
    (s.record e).draws = s.draws := rfl

@[simp] theorem State.record_response (s : State) (e : Event) :
    (s.record e).response = s.response := rfl

/-! ### `State.dropRead` -/

@[simp] theorem State.dropRead_handle (s : State) :
    (s.dropRead).handle = s.handle := rfl

@[simp] theorem State.dropRead_dev (s : State) :
    (s.dropRead).dev = s.dev := rfl

@[simp] theorem State.dropRead_device (s : State) :
    (s.dropRead).device = s.device := rfl

@[simp] theorem State.dropRead_history (s : State) :
    (s.dropRead).history = s.history := rfl

@[simp] theorem State.dropRead_requests (s : State) :
    (s.dropRead).requests = s.requests := rfl

@[simp] theorem State.dropRead_reads (s : State) :
    (s.dropRead).reads = s.reads.tail := rfl

@[simp] theorem State.dropRead_writes (s : State) :
    (s.dropRead).writes = s.writes := rfl

@[simp] theorem State.dropRead_draws (s : State) :
    (s.dropRead).draws = s.draws := rfl

@[simp] theorem State.dropRead_response (s : State) :
    (s.dropRead).response = s.response := rfl

/-! ### `State.dropWrite` -/

@[simp] theorem State.dropWrite_handle (s : State) :
    (s.dropWrite).handle = s.handle := rfl

@[simp] theorem State.dropWrite_dev (s : State) :
    (s.dropWrite).dev = s.dev := rfl

@[simp] theorem State.dropWrite_device (s : State) :
    (s.dropWrite).device = s.device := rfl

@[simp] theorem State.dropWrite_history (s : State) :
    (s.dropWrite).history = s.history := rfl

@[simp] theorem State.dropWrite_requests (s : State) :
    (s.dropWrite).requests = s.requests := rfl

@[simp] theorem State.dropWrite_reads (s : State) :
    (s.dropWrite).reads = s.reads := rfl

@[simp] theorem State.dropWrite_writes (s : State) :
    (s.dropWrite).writes = s.writes.tail := rfl

@[simp] theorem State.dropWrite_draws (s : State) :
    (s.dropWrite).draws = s.draws := rfl

@[simp] theorem State.dropWrite_response (s : State) :
    (s.dropWrite).response = s.response := rfl

/-! ### `State.countDraw` -/

@[simp] theorem State.countDraw_handle (s : State) :
    (s.countDraw).handle = s.handle := rfl

@[simp] theorem State.countDraw_dev (s : State) :
    (s.countDraw).dev = s.dev := rfl

@[simp] theorem State.countDraw_device (s : State) :
    (s.countDraw).device = s.device := rfl

@[simp] theorem State.countDraw_history (s : State) :
    (s.countDraw).history = s.history := rfl

@[simp] theorem State.countDraw_requests (s : State) :
    (s.countDraw).requests = s.requests := rfl

@[simp] theorem State.countDraw_reads (s : State) :
    (s.countDraw).reads = s.reads := rfl

@[simp] theorem State.countDraw_writes (s : State) :
    (s.countDraw).writes = s.writes := rfl

@[simp] theorem State.countDraw_draws (s : State) :
    (s.countDraw).draws = s.draws + 1 := rfl

@[simp] theorem State.countDraw_response (s : State) :
    (s.countDraw).response = s.response := rfl

/-! ### `State.setDev` -/

@[simp] theorem State.setDev_handle (s : State) (a : RegAddr) (v : Word) :
    (s.setDev a v).handle = s.handle := rfl

@[simp] theorem State.setDev_dev (s : State) (a : RegAddr) (v : Word) :
    (s.setDev a v).dev = s.dev.set a v := rfl

@[simp] theorem State.setDev_device (s : State) (a : RegAddr) (v : Word) :
    (s.setDev a v).device = s.device := rfl

@[simp] theorem State.setDev_history (s : State) (a : RegAddr) (v : Word) :
    (s.setDev a v).history = s.history := rfl

@[simp] theorem State.setDev_requests (s : State) (a : RegAddr) (v : Word) :
    (s.setDev a v).requests = s.requests := rfl

@[simp] theorem State.setDev_reads (s : State) (a : RegAddr) (v : Word) :
    (s.setDev a v).reads = s.reads := rfl

@[simp] theorem State.setDev_writes (s : State) (a : RegAddr) (v : Word) :
    (s.setDev a v).writes = s.writes := rfl

@[simp] theorem State.setDev_draws (s : State) (a : RegAddr) (v : Word) :
    (s.setDev a v).draws = s.draws := rfl

@[simp] theorem State.setDev_response (s : State) (a : RegAddr) (v : Word) :
    (s.setDev a v).response = s.response := rfl

/-! ### `State.setInit` -/

@[simp] theorem State.setInit_handle (s : State) (b : Bool) :
    (s.setInit b).handle = { s.handle with init := b } := rfl

@[simp] theorem State.setInit_dev (s : State) (b : Bool) :
    (s.setInit b).dev = s.dev := rfl

@[simp] theorem State.setInit_device (s : State) (b : Bool) :
    (s.setInit b).device = s.device := rfl

@[simp] theorem State.setInit_history (s : State) (b : Bool) :
    (s.setInit b).history = s.history := rfl

@[simp] theorem State.setInit_requests (s : State) (b : Bool) :
    (s.setInit b).requests = s.requests := rfl

@[simp] theorem State.setInit_reads (s : State) (b : Bool) :
    (s.setInit b).reads = s.reads := rfl

@[simp] theorem State.setInit_writes (s : State) (b : Bool) :
    (s.setInit b).writes = s.writes := rfl

@[simp] theorem State.setInit_draws (s : State) (b : Bool) :
    (s.setInit b).draws = s.draws := rfl

@[simp] theorem State.setInit_response (s : State) (b : Bool) :
    (s.setInit b).response = s.response := rfl

/-! ### `State.initialise` -/

@[simp] theorem State.initialise_handle (s : State) (b : BusRef) (a : DevAddr) :
    (s.initialise b a).handle = { bus := b, addr := a, init := true } := rfl

@[simp] theorem State.initialise_dev (s : State) (b : BusRef) (a : DevAddr) :
    (s.initialise b a).dev = s.dev := rfl

@[simp] theorem State.initialise_device (s : State) (b : BusRef) (a : DevAddr) :
    (s.initialise b a).device = s.device := rfl

@[simp] theorem State.initialise_history (s : State) (b : BusRef) (a : DevAddr) :
    (s.initialise b a).history = s.history := rfl

@[simp] theorem State.initialise_requests (s : State) (b : BusRef) (a : DevAddr) :
    (s.initialise b a).requests = s.requests := rfl

@[simp] theorem State.initialise_reads (s : State) (b : BusRef) (a : DevAddr) :
    (s.initialise b a).reads = s.reads := rfl

@[simp] theorem State.initialise_writes (s : State) (b : BusRef) (a : DevAddr) :
    (s.initialise b a).writes = s.writes := rfl

@[simp] theorem State.initialise_draws (s : State) (b : BusRef) (a : DevAddr) :
    (s.initialise b a).draws = s.draws := rfl

@[simp] theorem State.initialise_response (s : State) (b : BusRef) (a : DevAddr) :
    (s.initialise b a).response = s.response := rfl

/-! ### `State.issueFirst` -/

@[simp] theorem State.issueFirst_handle (s : State) (q : Request) :
    (s.issueFirst q).handle = s.handle := rfl

@[simp] theorem State.issueFirst_dev (s : State) (q : Request) :
    (s.issueFirst q).dev = s.dev := rfl

@[simp] theorem State.issueFirst_device (s : State) (q : Request) :
    (s.issueFirst q).device = s.device := rfl

@[simp] theorem State.issueFirst_history (s : State) (q : Request) :
    (s.issueFirst q).history = s.history := rfl

@[simp] theorem State.issueFirst_requests (s : State) (q : Request) :
    (s.issueFirst q).requests = .one q :: s.requests := rfl

@[simp] theorem State.issueFirst_reads (s : State) (q : Request) :
    (s.issueFirst q).reads = s.reads := rfl

@[simp] theorem State.issueFirst_writes (s : State) (q : Request) :
    (s.issueFirst q).writes = s.writes := rfl

@[simp] theorem State.issueFirst_draws (s : State) (q : Request) :
    (s.issueFirst q).draws = s.draws := rfl

@[simp] theorem State.issueFirst_response (s : State) (q : Request) :
    (s.issueFirst q).response = s.response := rfl

/-! ### `State.blockReset` -/

@[simp] theorem State.blockReset_handle (s : State) :
    s.blockReset.handle = Handle.unset (s.draws + 1) := rfl

@[simp] theorem State.blockReset_dev (s : State) :
    s.blockReset.dev = s.dev := rfl

@[simp] theorem State.blockReset_device (s : State) :
    s.blockReset.device = s.device := rfl

@[simp] theorem State.blockReset_history (s : State) :
    s.blockReset.history = [] := rfl

@[simp] theorem State.blockReset_requests (s : State) :
    s.blockReset.requests = s.requests := rfl

@[simp] theorem State.blockReset_reads (s : State) :
    s.blockReset.reads = s.reads := rfl

@[simp] theorem State.blockReset_writes (s : State) :
    s.blockReset.writes = s.writes := rfl

@[simp] theorem State.blockReset_draws (s : State) :
    s.blockReset.draws = s.draws + 1 := rfl

@[simp] theorem State.blockReset_response (s : State) :
    s.blockReset.response = none := rfl

/-! ### `State.sensorReset` -/

@[simp] theorem State.sensorReset_handle (s : State) :
    s.sensorReset.handle = s.handle := rfl

@[simp] theorem State.sensorReset_dev (s : State) :
    s.sensorReset.dev = DevRegs.powerUp := rfl

@[simp] theorem State.sensorReset_device (s : State) :
    s.sensorReset.device = s.device := rfl

@[simp] theorem State.sensorReset_history (s : State) :
    s.sensorReset.history = s.history := rfl

@[simp] theorem State.sensorReset_requests (s : State) :
    s.sensorReset.requests = s.requests := rfl

@[simp] theorem State.sensorReset_reads (s : State) :
    s.sensorReset.reads = s.reads := rfl

@[simp] theorem State.sensorReset_writes (s : State) :
    s.sensorReset.writes = s.writes := rfl

@[simp] theorem State.sensorReset_draws (s : State) :
    s.sensorReset.draws = s.draws := rfl

@[simp] theorem State.sensorReset_response (s : State) :
    s.sensorReset.response = s.response := rfl

/-! ### The handle and the registers after a reset -/

@[simp] theorem Handle.unset_init (n : Nat) : (Handle.unset n).init = false := rfl

@[simp] theorem DevRegs.powerUp_get (a : RegAddr) : DevRegs.powerUp.get a = Config.devReset a := by
  cases a <;> rfl

/-! ### The device registers -/

@[simp] theorem DevRegs.get_set_same (d : DevRegs) (a : RegAddr) (v : Word) : (d.set a v).get a = v := by
  cases a <;> rfl

theorem DevRegs.get_set_other (d : DevRegs) {a b : RegAddr} (v : Word) (h : b ≠ a) :
    (d.set a v).get b = d.get b := by
  cases a <;> cases b <;> first | rfl | exact absurd rfl h

/-! ### The environment's queues -/

@[simp] theorem afterReadReply_handle (s : State) : (afterReadReply s).handle = s.handle := by
  unfold afterReadReply; split <;> rfl

@[simp] theorem afterReadReply_dev (s : State) : (afterReadReply s).dev = s.dev := by
  unfold afterReadReply; split <;> rfl

@[simp] theorem afterReadReply_device (s : State) : (afterReadReply s).device = s.device := by
  unfold afterReadReply; split <;> rfl

@[simp] theorem afterReadReply_history (s : State) : (afterReadReply s).history = s.history := by
  unfold afterReadReply; split <;> rfl

@[simp] theorem afterReadReply_requests (s : State) : (afterReadReply s).requests = s.requests := by
  unfold afterReadReply; split <;> rfl

@[simp] theorem afterReadReply_reads (s : State) : (afterReadReply s).reads = s.reads.tail := by
  unfold afterReadReply; split <;> simp_all

@[simp] theorem afterReadReply_writes (s : State) : (afterReadReply s).writes = s.writes := by
  unfold afterReadReply; split <;> rfl

@[simp] theorem afterReadReply_response (s : State) : (afterReadReply s).response = s.response := by
  unfold afterReadReply; split <;> rfl

@[simp] theorem afterWriteReply_handle (s : State) : (afterWriteReply s).handle = s.handle := by
  unfold afterWriteReply; split <;> rfl

@[simp] theorem afterWriteReply_dev (s : State) : (afterWriteReply s).dev = s.dev := by
  unfold afterWriteReply; split <;> rfl

@[simp] theorem afterWriteReply_device (s : State) : (afterWriteReply s).device = s.device := by
  unfold afterWriteReply; split <;> rfl

@[simp] theorem afterWriteReply_history (s : State) : (afterWriteReply s).history = s.history := by
  unfold afterWriteReply; split <;> rfl

@[simp] theorem afterWriteReply_requests (s : State) : (afterWriteReply s).requests = s.requests := by
  unfold afterWriteReply; split <;> rfl

@[simp] theorem afterWriteReply_reads (s : State) : (afterWriteReply s).reads = s.reads := by
  unfold afterWriteReply; split <;> rfl

@[simp] theorem afterWriteReply_writes (s : State) : (afterWriteReply s).writes = s.writes.tail := by
  unfold afterWriteReply; split <;> simp_all

@[simp] theorem afterWriteReply_response (s : State) : (afterWriteReply s).response = s.response := by
  unfold afterWriteReply; split <;> rfl

end Sys2Proof.Machine
end

