-- ==== Sys2Proof/Laws/Ops.lean ====
section
/-!
SUPPORT. For each shared operation, what it answers in each case, and once for all what it can answer.
-/

namespace Sys2Proof.Machine

/-! ## Fields after a transaction -/

@[simp] theorem afterRead_handle (a : RegAddr) (x : ReadAnswer) (s : State) :
    (afterRead a x s).handle = s.handle := by simp [afterRead]

@[simp] theorem afterRead_dev (a : RegAddr) (x : ReadAnswer) (s : State) :
    (afterRead a x s).dev = s.dev := by simp [afterRead]

@[simp] theorem afterRead_device (a : RegAddr) (x : ReadAnswer) (s : State) :
    (afterRead a x s).device = s.device := by simp [afterRead]

@[simp] theorem afterRead_history (a : RegAddr) (x : ReadAnswer) (s : State) :
    (afterRead a x s).history = s.history ++ [readEvent a x s] := by simp [afterRead]

@[simp] theorem afterRead_requests (a : RegAddr) (x : ReadAnswer) (s : State) :
    (afterRead a x s).requests = s.requests := by simp [afterRead]

@[simp] theorem afterRead_reads (a : RegAddr) (x : ReadAnswer) (s : State) :
    (afterRead a x s).reads = s.reads.tail := by simp [afterRead]

@[simp] theorem afterRead_writes (a : RegAddr) (x : ReadAnswer) (s : State) :
    (afterRead a x s).writes = s.writes := by simp [afterRead]

@[simp] theorem afterRead_response (a : RegAddr) (x : ReadAnswer) (s : State) :
    (afterRead a x s).response = s.response := by simp [afterRead]

@[simp] theorem afterWrite_handle (a : RegAddr) (v : Word) (x : WriteAnswer) (s : State) :
    (afterWrite a v x s).handle = s.handle := by simp [afterWrite]

@[simp] theorem afterWrite_dev (a : RegAddr) (v : Word) (x : WriteAnswer) (s : State) :
    (afterWrite a v x s).dev = s.dev.set a (writtenValue a v s) := by simp [afterWrite]

@[simp] theorem afterWrite_device (a : RegAddr) (v : Word) (x : WriteAnswer) (s : State) :
    (afterWrite a v x s).device = s.device := by simp [afterWrite]

@[simp] theorem afterWrite_history (a : RegAddr) (v : Word) (x : WriteAnswer) (s : State) :
    (afterWrite a v x s).history = s.history ++ [writeEvent a v x s] := by simp [afterWrite]

@[simp] theorem afterWrite_requests (a : RegAddr) (v : Word) (x : WriteAnswer) (s : State) :
    (afterWrite a v x s).requests = s.requests := by simp [afterWrite]

@[simp] theorem afterWrite_reads (a : RegAddr) (v : Word) (x : WriteAnswer) (s : State) :
    (afterWrite a v x s).reads = s.reads := by simp [afterWrite]

@[simp] theorem afterWrite_writes (a : RegAddr) (v : Word) (x : WriteAnswer) (s : State) :
    (afterWrite a v x s).writes = s.writes.tail := by simp [afterWrite]

@[simp] theorem afterWrite_response (a : RegAddr) (v : Word) (x : WriteAnswer) (s : State) :
    (afterWrite a v x s).response = s.response := by simp [afterWrite]

/-- A write that answered `ok` leaves the register holding the value written. -/
theorem writtenValue_of_ok {a : RegAddr} {v : Word} {s : State} (h : writeAnswer a v s = some .ok) :
    writtenValue a v s = v := by
  unfold writeAnswer at h; unfold writtenValue
  split at h <;> simp_all

/-! ## `readReg` and `writeReg` -/

theorem readReg_of_never {a : RegAddr} {s : State} (k : Word → State → Out) (h : readAnswer a s = none) :
    readReg a k s = .fault .collaboratorNeverReturns := by
  simp [readReg, busRead, h]

theorem readReg_of_error {a : RegAddr} {s : State} (k : Word → State → Out)
    (h : readAnswer a s = some .error) :
    readReg a k s = busFailure (afterRead a .error s) := by
  simp [readReg, busRead, h]

theorem readReg_of_ok {a : RegAddr} {s : State} {b0 b1 : Byte} (k : Word → State → Out)
    (h : readAnswer a s = some (.ok b0 b1)) :
    readReg a k s = k (joinBytes b0 b1) (afterRead a (.ok b0 b1) s) := by
  simp [readReg, busRead, h]

/-- Everything `readReg` can answer. -/
theorem readReg_cases (a : RegAddr) (k : Word → State → Out) (s : State) :
    (readAnswer a s = none ∧ readReg a k s = .fault .collaboratorNeverReturns) ∨
    (readAnswer a s = some .error ∧ readReg a k s = busFailure (afterRead a .error s)) ∨
    (∃ b0 b1, readAnswer a s = some (.ok b0 b1) ∧
      readReg a k s = k (joinBytes b0 b1) (afterRead a (.ok b0 b1) s)) := by
  rcases h : readAnswer a s with _ | ⟨b0, b1⟩ | _
  · exact .inl ⟨rfl, readReg_of_never k h⟩
  · exact .inr (.inr ⟨b0, b1, rfl, readReg_of_ok k h⟩)
  · exact .inr (.inl ⟨rfl, readReg_of_error k h⟩)

theorem writeReg_of_never {a : RegAddr} {v : Word} {s : State} (k : State → Out)
    (h : writeAnswer a v s = none) :
    writeReg a v k s = .fault .collaboratorNeverReturns := by
  simp [writeReg, busWrite, h]

theorem writeReg_of_error {a : RegAddr} {v : Word} {s : State} (k : State → Out)
    (h : writeAnswer a v s = some .error) :
    writeReg a v k s = busFailure (afterWrite a v .error s) := by
  simp [writeReg, busWrite, h]

theorem writeReg_of_ok {a : RegAddr} {v : Word} {s : State} (k : State → Out)
    (h : writeAnswer a v s = some .ok) :
    writeReg a v k s = k (afterWrite a v .ok s) := by
  simp [writeReg, busWrite, h]

/-- Everything `writeReg` can answer. -/
theorem writeReg_cases (a : RegAddr) (v : Word) (k : State → Out) (s : State) :
    (writeAnswer a v s = none ∧ writeReg a v k s = .fault .collaboratorNeverReturns) ∨
    (writeAnswer a v s = some .error ∧ writeReg a v k s = busFailure (afterWrite a v .error s)) ∨
    (writeAnswer a v s = some .ok ∧ writeReg a v k s = k (afterWrite a v .ok s)) := by
  rcases h : writeAnswer a v s with _ | _ | _
  · exact .inl ⟨rfl, writeReg_of_never k h⟩
  · exact .inr (.inr ⟨rfl, writeReg_of_ok k h⟩)
  · exact .inr (.inl ⟨rfl, writeReg_of_error k h⟩)

/-! ## The prologue and the range check -/

@[simp] theorem prologue_null (k : State → Out) (s : State) :
    prologue .null k s = finish .invalidParameter none s := rfl

theorem prologue_uninitialized {s : State} (k : State → Out) (h : s.handle.init = false) :
    prologue .handle k s = finish .notInitialized none s := by
  simp [prologue, State.ready, h]

theorem prologue_ready {s : State} (k : State → Out) (h : s.handle.init = true) :
    prologue .handle k s = k s := by
  simp [prologue, State.ready, h]

/-- Everything the prologue can answer. -/
theorem prologue_cases (h : HandleRef) (k : State → Out) (s : State) :
    (h = .null ∧ prologue h k s = finish .invalidParameter none s) ∨
    (h = .handle ∧ s.handle.init = false ∧ prologue h k s = finish .notInitialized none s) ∨
    (h = .handle ∧ s.handle.init = true ∧ prologue h k s = k s) := by
  cases h with
  | null => exact .inl ⟨rfl, rfl⟩
  | handle =>
    cases hi : s.handle.init with
    | false => exact .inr (.inl ⟨rfl, rfl, prologue_uninitialized k hi⟩)
    | true => exact .inr (.inr ⟨rfl, rfl, prologue_ready k hi⟩)

/-- The range check answers Ok exactly inside the range, both bounds included (R120). -/
theorem rangeCheck_ok_iff (x : ℚ) : rangeCheck x = .ok ↔ -75 ≤ x ∧ x ≤ 2047 / 16 := by
  rw [← tMax_eq]
  unfold rangeCheck tMin
  split <;> rename_i h <;> simp_all [not_or]
  grind

theorem rangeCheck_out_iff (x : ℚ) : rangeCheck x = .valueOutOfRange ↔ x < -75 ∨ 2047 / 16 < x := by
  rw [← tMax_eq]
  unfold rangeCheck tMin; split <;> simp_all

theorem rangeChecked_of_ok {x : ℚ} (k : State → Out) (s : State) (h : rangeCheck x = .ok) :
    rangeChecked x k s = k s := by simp [rangeChecked, h]

theorem rangeChecked_of_out {x : ℚ} (k : State → Out) (s : State) (h : rangeCheck x = .valueOutOfRange) :
    rangeChecked x k s = finish .valueOutOfRange none s := by simp [rangeChecked, h]

/-- Everything a range-checked operation can answer. -/
theorem rangeChecked_cases (x : ℚ) (k : State → Out) (s : State) :
    (rangeCheck x = .ok ∧ rangeChecked x k s = k s) ∨
    (rangeCheck x = .valueOutOfRange ∧ rangeChecked x k s = finish .valueOutOfRange none s) := by
  have h : rangeCheck x = .ok ∨ rangeCheck x = .valueOutOfRange := by
    unfold rangeCheck; split <;> simp
  rcases h with h | h
  · exact .inl ⟨h, rangeChecked_of_ok k s h⟩
  · exact .inr ⟨h, rangeChecked_of_out k s h⟩

/-! ## The shapes of the operations -/

/-- Every operation is a pure answer, INIT, a read, a threshold write, a range-checked threshold write or a masked update. -/
theorem exec_shape (i : Instr) :
    (∃ (c : ResultCode) (d : Option Data), (d = none ∨ c = .ok) ∧ c ≠ .busError ∧
      ∀ s, exec i s = finish c d s) ∨
    (∃ (h : HandleRef) (bus : Option BusRef) (devidx : DevIdx) (addr : DevAddr), i = .init h bus devidx addr) ∨
    (∃ (h : HandleRef) (a : RegAddr) (f : Word → Data), ∀ s,
      exec i s = prologue h (readReg a fun v => answer (f v)) s) ∨
    (∃ (h : HandleRef) (a : RegAddr) (x : ℚ), (a = .tLow ∨ a = .tHigh) ∧ ∀ s, exec i s = writeCelsius a h x s) ∨
    (∃ (h : HandleRef) (a : RegAddr) (x : ℚ), (a = .tLow ∨ a = .tHigh) ∧ ∀ s, exec i s = rangeChecked x (writeCelsius a h x) s) ∨
    (∃ (h : HandleRef) (f : Field) (code : Nat), ∀ s, exec i s = setField f code h s) := by
  cases i with
  | encode x => exact .inl ⟨_, _, .inr rfl, by simp, fun _ => rfl⟩
  | decode r => exact .inl ⟨_, _, .inr rfl, by simp, fun _ => rfl⟩
  | maskedWrite c n m => exact .inl ⟨_, _, .inr rfl, by simp, fun _ => rfl⟩
  | rangeCheck x => exact .inl ⟨_, _, .inl rfl, by unfold rangeCheck; split <;> simp, fun _ => rfl⟩
  | init h b d a => exact .inr (.inl ⟨h, b, d, a, rfl⟩)
  | getTemp h => exact .inr (.inr (.inl ⟨_, _, fun v => .celsius (decodeCelsius v), fun _ => rfl⟩))
  | getThigh h => exact .inr (.inr (.inl ⟨_, _, fun v => .celsius (decodeCelsius v), fun _ => rfl⟩))
  | getTlow h => exact .inr (.inr (.inl ⟨_, _, fun v => .celsius (decodeCelsius v), fun _ => rfl⟩))
  | setThigh h x => exact .inr (.inr (.inr (.inl ⟨_, _, _, .inr rfl, fun _ => rfl⟩)))
  | setTlow h x => exact .inr (.inr (.inr (.inl ⟨_, _, _, .inl rfl, fun _ => rfl⟩)))
  | getCr h =>
    exact .inr (.inr (.inl ⟨_, _, fun v => .convRate (mapConvRate (extractField .cr v)), fun _ => rfl⟩))
  | getHyst h =>
    exact .inr (.inr (.inl ⟨_, _, fun v => .hysteresis (mapHysteresis (extractField .hyst v)), fun _ => rfl⟩))
  | getFm h =>
    exact .inr (.inr (.inl ⟨_, _, fun v => .funcMode (mapFuncMode (extractField .fm v)), fun _ => rfl⟩))
  | getTm h =>
    exact .inr (.inr (.inl ⟨_, _, fun v => .thermMode (mapThermMode (extractField .tm v)), fun _ => rfl⟩))
  | getPol h =>
    exact .inr (.inr (.inl ⟨_, _, fun v => .polarity (mapPolarity (extractField .pol v)), fun _ => rfl⟩))
  | setCr h e => exact .inr (.inr (.inr (.inr (.inr ⟨_, _, _, fun _ => rfl⟩))))
  | setHyst h e => exact .inr (.inr (.inr (.inr (.inr ⟨_, _, _, fun _ => rfl⟩))))
  | setFm h e => exact .inr (.inr (.inr (.inr (.inr ⟨_, _, _, fun _ => rfl⟩))))
  | setTm h e => exact .inr (.inr (.inr (.inr (.inr ⟨_, _, _, fun _ => rfl⟩))))
  | setPol h e => exact .inr (.inr (.inr (.inr (.inr ⟨_, _, _, fun _ => rfl⟩))))
  | setcThigh h x => exact .inr (.inr (.inr (.inr (.inl ⟨_, _, _, .inr rfl, fun _ => rfl⟩))))
  | setcTlow h x => exact .inr (.inr (.inr (.inr (.inl ⟨_, _, _, .inl rfl, fun _ => rfl⟩))))

/-! ## Accepting a request -/

theorem accept_none {s : State} (h : s.requests = []) : accept s = .ok (none, s) := by
  simp [accept, h]

theorem accept_reset {s : State} {rest : List Issue} (h : s.requests = .blockReset :: rest) :
    accept s = .ok (none, State.blockReset { s with requests := rest }) := by
  simp [accept, h]

theorem accept_overlapping {s : State} {q q' : Request} {rest : List Issue}
    (h : s.requests = .overlapping q q' :: rest) : accept s = .error .overlappingRequests := by
  simp [accept, h]

theorem accept_rejected {s : State} {q : Request} {rest : List Issue} {why : DecodeError}
    (h : s.requests = .one q :: rest) (hd : decode q = .error why) :
    accept s = .error (.rejectedRequest why) := by
  simp [accept, h, hd]

theorem accept_decoded {s : State} {q : Request} {rest : List Issue} {i : Instr}
    (h : s.requests = .one q :: rest) (hd : decode q = .ok i) :
    accept s = .ok (some i, { s with requests := rest }) := by
  simp [accept, h, hd]

end Sys2Proof.Machine
end

