-- ==== Sys2Proof/Laws/Exec.lean ====
section
/-!
SUPPORT. Everything an operation can answer, said once: if `exec` answers a next state, one of five endings holds. Later
proofs cite this instead of unfolding the meanings.
-/

namespace Sys2Proof.Machine

/-- The operation ends without a transaction: only the response changes. -/
def EndsAtOnce (s t : State) : Prop :=
  ∃ c d, (d = none ∨ c = .ok) ∧ c ≠ .busError ∧ t = s.respond c d

/-- The operation ends with the read of `a`: it failed, or its value was answered. -/
def EndsInRead (s t : State) : Prop :=
  (∃ a, readAnswer a s = some .error ∧ t = ((afterRead a .error s).setInit false).respond .busError none) ∨
  (∃ a b0 b1 d, readAnswer a s = some (.ok b0 b1) ∧ t = (afterRead a (.ok b0 b1) s).respond .ok (some d))

/-- The operation ends with a write of `v` to `a`, from state `s`. -/
def EndsInWrite (a : RegAddr) (v : Word) (s t : State) : Prop :=
  (writeAnswer a v s = some .error ∧
    t = ((afterWrite a v .error s).setInit false).respond .busError none) ∨
  (writeAnswer a v s = some .ok ∧ t = (afterWrite a v .ok s).respond .ok none)

/-- The five ways in which an operation reaches a next state: at once, by a successful INIT, in a read, in a threshold write, or
in the write half of a masked update. -/
def Ending (i : Instr) (s t : State) : Prop :=
  EndsAtOnce s t ∨
  (∃ b d a, i = .init .handle (some b) d a ∧ t = (s.initialise b a).respond .ok none) ∨
  (s.handle.init = true ∧ EndsInRead s t) ∨
  (s.handle.init = true ∧ ∃ a x, (a = .tLow ∨ a = .tHigh) ∧ EndsInWrite a (encodeCelsius x) s t) ∨
  (s.handle.init = true ∧ ∃ b0 b1 out, readAnswer .configuration s = some (.ok b0 b1) ∧
    EndsInWrite .configuration out (afterRead .configuration (.ok b0 b1) s) t)

theorem writeReg_done_next {a : RegAddr} {v : Word} {s t : State} (h : writeReg a v done s = .next t) :
    EndsInWrite a v s t := by
  rcases writeReg_cases a v done s with ⟨_, e⟩ | ⟨ha, e⟩ | ⟨ha, e⟩ <;> rw [e] at h
  · cases h
  · cases h; exact .inl ⟨ha, rfl⟩
  · cases h; exact .inr ⟨ha, rfl⟩

theorem writeCelsius_next {a : RegAddr} {h : HandleRef} {x : ℚ} {s t : State}
    (hn : writeCelsius a h x s = .next t) :
    EndsAtOnce s t ∨ (s.handle.init = true ∧ EndsInWrite a (encodeCelsius x) s t) := by
  rcases prologue_cases h (writeReg a (encodeCelsius x) done) s with ⟨_, e⟩ | ⟨_, _, e⟩ | ⟨_, hi, e⟩ <;>
    rw [writeCelsius, e] at hn
  · cases hn; exact .inl ⟨_, _, .inl rfl, by simp, rfl⟩
  · cases hn; exact .inl ⟨_, _, .inl rfl, by simp, rfl⟩
  · exact .inr ⟨hi, writeReg_done_next hn⟩

theorem getter_next {h : HandleRef} {a : RegAddr} {f : Word → Data} {s t : State}
    (hn : prologue h (readReg a fun v => answer (f v)) s = .next t) :
    EndsAtOnce s t ∨ (s.handle.init = true ∧ EndsInRead s t) := by
  rcases prologue_cases h (readReg a fun v => answer (f v)) s with ⟨_, e⟩ | ⟨_, _, e⟩ | ⟨_, hi, e⟩ <;>
    rw [e] at hn
  · cases hn; exact .inl ⟨_, _, .inl rfl, by simp, rfl⟩
  · cases hn; exact .inl ⟨_, _, .inl rfl, by simp, rfl⟩
  · refine .inr ⟨hi, ?_⟩
    rcases readReg_cases a (fun v => answer (f v)) s with ⟨_, e⟩ | ⟨ha, e⟩ | ⟨b0, b1, ha, e⟩ <;> rw [e] at hn
    · cases hn
    · cases hn; exact .inl ⟨a, ha, rfl⟩
    · cases hn; exact .inr ⟨a, b0, b1, _, ha, rfl⟩

theorem setField_next {h : HandleRef} {f : Field} {code : Nat} {s t : State}
    (hn : setField f code h s = .next t) :
    EndsAtOnce s t ∨ (s.handle.init = true ∧ EndsInRead s t) ∨
    (s.handle.init = true ∧ ∃ b0 b1, readAnswer .configuration s = some (.ok b0 b1) ∧
      EndsInWrite .configuration (updateField f code (joinBytes b0 b1))
        (afterRead .configuration (.ok b0 b1) s) t) := by
  rw [setField] at hn
  rcases prologue_cases h (readReg .configuration fun cur =>
      writeReg .configuration (updateField f code cur) done) s with ⟨_, e⟩ | ⟨_, _, e⟩ | ⟨_, hi, e⟩ <;>
    rw [e] at hn
  · cases hn; exact .inl ⟨_, _, .inl rfl, by simp, rfl⟩
  · cases hn; exact .inl ⟨_, _, .inl rfl, by simp, rfl⟩
  · rcases readReg_cases .configuration (fun cur =>
        writeReg .configuration (updateField f code cur) done) s with ⟨_, e⟩ | ⟨ha, e⟩ | ⟨b0, b1, ha, e⟩ <;>
      rw [e] at hn
    · cases hn
    · cases hn; exact .inr (.inl ⟨hi, .inl ⟨_, ha, rfl⟩⟩)
    · exact .inr (.inr ⟨hi, b0, b1, ha, writeReg_done_next hn⟩)

/-- If an operation answers a next state, one of the endings holds. -/
theorem exec_next {i : Instr} {s t : State} (h : exec i s = .next t) : Ending i s t := by
  rcases exec_shape i with ⟨c, d, hd, hc, e⟩ | ⟨hh, bus, d, a, rfl⟩ | ⟨hh, a, f, e⟩ | ⟨hh, a, x, ha, e⟩ |
    ⟨hh, a, x, ha, e⟩ | ⟨hh, f, code, e⟩
  · rw [e] at h; cases h; exact .inl ⟨c, d, hd, hc, rfl⟩
  · cases hh with
    | null => cases h; exact .inl ⟨_, _, .inl rfl, by simp, rfl⟩
    | handle =>
      cases bus with
      | none => cases h; exact .inl ⟨_, _, .inl rfl, by simp, rfl⟩
      | some b => cases h; exact .inr (.inl ⟨b, d, a, rfl, rfl⟩)
  · rw [e] at h
    rcases getter_next h with h | h
    · exact .inl h
    · exact .inr (.inr (.inl h))
  · rw [e] at h
    rcases writeCelsius_next h with h | ⟨hi, h⟩
    · exact .inl h
    · exact .inr (.inr (.inr (.inl ⟨hi, a, x, ha, h⟩)))
  · rw [e] at h
    rcases rangeChecked_cases x (writeCelsius a hh x) s with ⟨_, e'⟩ | ⟨_, e'⟩ <;> rw [e'] at h
    · rcases writeCelsius_next h with h | ⟨hi, h⟩
      · exact .inl h
      · exact .inr (.inr (.inr (.inl ⟨hi, a, x, ha, h⟩)))
    · cases h; exact .inl ⟨_, _, .inl rfl, by simp, rfl⟩
  · rw [e] at h
    rcases setField_next h with h | h | ⟨hi, b0, b1, ha, h⟩
    · exact .inl h
    · exact .inr (.inr (.inl h))
    · exact .inr (.inr (.inr (.inr ⟨hi, b0, b1, _, ha, h⟩)))

/-- Every way in which a step reaches a next state: it waits, it resets the block, or it runs the operation of the next
request. -/
theorem step_next {s t : State} (h : step s = .next t) :
    (s.requests = [] ∧ t = s) ∨
    (∃ rest, s.requests = .blockReset :: rest ∧ t = State.blockReset { s with requests := rest }) ∨
    ∃ q rest i, s.requests = .one q :: rest ∧ decode q = .ok i ∧ exec i { s with requests := rest } = .next t := by
  match hr : s.requests with
  | [] => simp [step, accept_none hr] at h; exact .inl ⟨rfl, h.symm⟩
  | .blockReset :: rest => simp [step, accept_reset hr] at h; exact .inr (.inl ⟨rest, rfl, h.symm⟩)
  | .overlapping q q' :: rest => simp [step, accept_overlapping hr] at h
  | .one q :: rest =>
    cases hd : decode q with
    | error why => simp [step, accept_rejected hr hd] at h
    | ok i => simp [step, accept_decoded hr hd] at h; exact .inr (.inr ⟨q, rest, i, rfl, hd, h⟩)

end Sys2Proof.Machine
end

