-- ==== Sys2Proof/Laws/PerInstr.lean ====
section
/-!
SUPPORT. The family `Encoding`: what the encoder gives for each operation. The request is well formed, and it uses no port
that its operation does not use (spec/30_encoding.md R94, R95).
-/

/-- The request of an operation is one the spec defines, and every port the operation does not use is zero. -/
def Sys2Proof.Laws.Encoding.Statement (i : Sys2Proof.Instr) : Prop :=
  (Sys2Proof.encode i).wellFormed = true ∧ (Sys2Proof.encode i).canonical = Sys2Proof.encode i

namespace Sys2Proof.Laws.Encoding

open Sys2Proof

theorem encode (x : ℚ) : Statement (.encode x) := ⟨rfl, rfl⟩

theorem decode (r : Word) : Statement (.decode r) := ⟨rfl, rfl⟩

theorem maskedWrite (cur newv mask : Word) : Statement (.maskedWrite cur newv mask) := ⟨rfl, rfl⟩

theorem rangeCheck (x : ℚ) : Statement (.rangeCheck x) := ⟨rfl, rfl⟩

theorem init (h : HandleRef) (bus : Option BusRef) (devidx : DevIdx) (addr : DevAddr) : Statement (.init h bus devidx addr) := by
  cases h <;> exact ⟨rfl, rfl⟩

theorem getTemp (h : HandleRef) : Statement (.getTemp h) := by
  cases h <;> exact ⟨rfl, rfl⟩

theorem getThigh (h : HandleRef) : Statement (.getThigh h) := by
  cases h <;> exact ⟨rfl, rfl⟩

theorem getTlow (h : HandleRef) : Statement (.getTlow h) := by
  cases h <;> exact ⟨rfl, rfl⟩

theorem setThigh (h : HandleRef) (x : ℚ) : Statement (.setThigh h x) := by
  cases h <;> exact ⟨rfl, rfl⟩

theorem setTlow (h : HandleRef) (x : ℚ) : Statement (.setTlow h x) := by
  cases h <;> exact ⟨rfl, rfl⟩

theorem getCr (h : HandleRef) : Statement (.getCr h) := by
  cases h <;> exact ⟨rfl, rfl⟩

theorem getHyst (h : HandleRef) : Statement (.getHyst h) := by
  cases h <;> exact ⟨rfl, rfl⟩

theorem getFm (h : HandleRef) : Statement (.getFm h) := by
  cases h <;> exact ⟨rfl, rfl⟩

theorem getTm (h : HandleRef) : Statement (.getTm h) := by
  cases h <;> exact ⟨rfl, rfl⟩

theorem getPol (h : HandleRef) : Statement (.getPol h) := by
  cases h <;> exact ⟨rfl, rfl⟩

theorem setCr (h : HandleRef) (e : ConvRate) : Statement (.setCr h e) := by
  cases h <;> cases e <;> exact ⟨rfl, rfl⟩

theorem setHyst (h : HandleRef) (e : Hysteresis) : Statement (.setHyst h e) := by
  cases h <;> cases e <;> exact ⟨rfl, rfl⟩

theorem setFm (h : HandleRef) (e : FuncMode) : Statement (.setFm h e) := by
  cases h <;> cases e <;> exact ⟨rfl, rfl⟩

theorem setTm (h : HandleRef) (e : ThermMode) : Statement (.setTm h e) := by
  cases h <;> cases e <;> exact ⟨rfl, rfl⟩

theorem setPol (h : HandleRef) (e : Polarity) : Statement (.setPol h e) := by
  cases h <;> cases e <;> exact ⟨rfl, rfl⟩

theorem setcThigh (h : HandleRef) (x : ℚ) : Statement (.setcThigh h x) := by
  cases h <;> exact ⟨rfl, rfl⟩

theorem setcTlow (h : HandleRef) (x : ℚ) : Statement (.setcTlow h x) := by
  cases h <;> exact ⟨rfl, rfl⟩

end Sys2Proof.Laws.Encoding
end

