-- ==== Sys2Proof/Laws/Safety.lean ====
section
/-!
SUPPORT. How the last write of a history changes when one transaction is appended.
-/

namespace Sys2Proof.Safety

open Sys2Proof.Machine

/-- A read appended to a history leaves every last write. -/
theorem lastWrite_append_rd (a : RegAddr) (h : List Event) (b : BusRef) (d : DevAddr) (r : RegAddr) (x : ReadAnswer) :
    lastWrite a (h ++ [.rd b d r x]) = lastWrite a h := by
  induction h with
  | nil => rfl
  | cons e h ih => simp only [List.cons_append, lastWrite, ih]

/-- A write appended to a history is the last write of its register, and leaves that of every other. -/
theorem lastWrite_append_wr (a : RegAddr) (h : List Event) (b : BusRef) (d : DevAddr) (r : RegAddr) (b0 b1 : Byte)
    (x : WriteAnswer) :
    lastWrite a (h ++ [.wr b d r b0 b1 x]) = if r = a then some (joinBytes b0 b1, x) else lastWrite a h := by
  induction h with
  | nil => simp only [List.nil_append, lastWrite]
  | cons e h ih =>
    simp only [List.cons_append, lastWrite, ih]
    by_cases hr : r = a <;> simp [hr]

end Sys2Proof.Safety
end

