-- ==== Sys2Proof/Tests/Slice0.lean ====
section
/-!
SUPPORT. Tests: ill-formed requests are refused; every operation is decoded from its selector; single steps against the
vectors of spec/95_test_vectors.md; and, for each statement with hypotheses, a concrete input that meets them.
-/

namespace Sys2Proof.Tests

open Sys2Proof Sys2Proof.Machine Sys2Proof.Safety Sys2Proof.Spec

/-! ## Helpers -/

/-- A state with handle {bus 1, 0x48, `init`}, an empty history, device registers T-Low 20 and T-High 30 degrees (program P5 of
95), and scripted answers. -/
def st (init : Bool) (device : Device) (reads : List ReadReply) (writes : List WriteReply) : State where
  handle := { bus := ⟨1⟩, addr := 0x48, init := init }
  dev := { temperature := 0x1900, configuration := 0x00A0, tLow := 0x1400, tHigh := 0x1E00 }
  device := device
  history := []
  requests := []
  reads := reads
  writes := writes
  draws := 0
  response := none

/-- Ready, under the oracle. -/
def ready (reads : List ReadReply) (writes : List WriteReply) : State := st true .oracle reads writes

/-- Uninitialized, under the oracle. -/
def fresh : State := st false .oracle [] []

/-- A read answered with a register value. -/
def rd (v : Word) : ReadReply := .returns (.ok (v.extractLsb' 8 8) (v.extractLsb' 0 8))

/-- The response of a step that reaches a next state. -/
def resp : Out → Option Response
  | .next t => t.response
  | .fault _ => none
  | .refused _ => none

/-- The transactions of a step that reaches a next state. -/
def hist : Out → List Event
  | .next t => t.history
  | .fault _ => []
  | .refused _ => []

/-- The handle's flag after a step that reaches a next state. -/
def flag : Out → Option Bool
  | .next t => some t.handle.init
  | .fault _ => none
  | .refused _ => none

/-- A response with a result code and no data. -/
def only (c : ResultCode) : Option Response := some { status := c, data := none }

/-- A response with Ok and data. -/
def okData (d : Data) : Option Response := some { status := .ok, data := some d }

/-- The register value a GET or SET read test uses, on the bus of `st`. -/
def rdEvent (a : RegAddr) (b0 b1 : Byte) : Event := .rd ⟨1⟩ 0x48 a (.ok b0 b1)

/-- A write that answered ok, on the bus of `st`. -/
def wrEvent (a : RegAddr) (b0 b1 : Byte) : Event := .wr ⟨1⟩ 0x48 a b0 b1 .ok

/-! ## Ill-formed requests: one for each check of WellFormed -/

/-- R100: selector 0x16 names no operation. -/
theorem test_illformed_selector : (Request.bare 0x16).wellFormed = false ∧
    decode (Request.bare 0x16) = .error (.unknownSelector 0x16) := ⟨by decide, rfl⟩

/-- R99: code 3 names no functional mode. -/
theorem test_illformed_member : ({ Request.bare 0x11 with e := 3 } : Request).wellFormed = false ∧
    decode { Request.bare 0x11 with e := 3 } = .error (.noSuchMember 0x11 3) := ⟨by decide, rfl⟩

/-- R99: bit 1 of the port names no thermostat mode and no polarity. -/
theorem test_illformed_member_bit1 : ({ Request.bare 0x12 with e := 2 } : Request).wellFormed = false ∧
    ({ Request.bare 0x13 with e := 2 } : Request).wellFormed = false := ⟨by decide, by decide⟩

/-- R114: not a number has no value. -/
theorem test_illformed_celsius : ({ Request.bare 0x08 with x := .nan } : Request).wellFormed = false ∧
    decode { Request.bare 0x08 with x := .nan } = .error (.celsiusHasNoValue 0x08) := ⟨by decide, rfl⟩

/-- The last selector, the last member code and a finite operand are well formed. -/
theorem test_wellformed : ({ Request.bare 0x15 with x := .value 4096 } : Request).wellFormed = true ∧
    ({ Request.bare 0x11 with e := 2 } : Request).wellFormed = true ∧
    ({ Request.bare 0x10 with e := 3 } : Request).wellFormed = true := ⟨by decide, by decide, by decide⟩

/-! ## Decoding: the selector of each row of R94, bit by bit -/

theorem test_decode_encode : decode { Request.bare 0b00000 with x := .value (-75) } = .ok (.encode (-75)) := rfl
theorem test_decode_decode : decode { Request.bare 0b00001 with r := 0xE650 } = .ok (.decode 0xE650) := rfl
theorem test_decode_maskedWrite : decode { Request.bare 0b00010 with cur := 1, newv := 2, mask := 3 } =
    .ok (.maskedWrite 1 2 3) := rfl
theorem test_decode_rangeCheck : decode { Request.bare 0b00011 with x := .value 9 } = .ok (.rangeCheck 9) := rfl
theorem test_decode_init : decode { Request.bare 0b00100 with bus := some ⟨5⟩, devidx := ⟨7⟩, addr := 0x48 } =
    .ok (.init .handle (some ⟨5⟩) ⟨7⟩ 0x48) := rfl
theorem test_decode_getTemp : decode { Request.bare 0b00101 with hnull := true } = .ok (.getTemp .null) := rfl
theorem test_decode_getThigh : decode (Request.bare 0b00110) = .ok (.getThigh .handle) := rfl
theorem test_decode_getTlow : decode (Request.bare 0b00111) = .ok (.getTlow .handle) := rfl
theorem test_decode_setThigh : decode { Request.bare 0b01000 with x := .value 50 } = .ok (.setThigh .handle 50) := rfl
theorem test_decode_setTlow : decode { Request.bare 0b01001 with x := .value 50 } = .ok (.setTlow .handle 50) := rfl
theorem test_decode_getCr : decode (Request.bare 0b01010) = .ok (.getCr .handle) := rfl
theorem test_decode_getHyst : decode (Request.bare 0b01011) = .ok (.getHyst .handle) := rfl
theorem test_decode_getFm : decode (Request.bare 0b01100) = .ok (.getFm .handle) := rfl
theorem test_decode_getTm : decode (Request.bare 0b01101) = .ok (.getTm .handle) := rfl
theorem test_decode_getPol : decode (Request.bare 0b01110) = .ok (.getPol .handle) := rfl
theorem test_decode_setCr : decode { Request.bare 0b01111 with e := 0b10 } = .ok (.setCr .handle .hz4) := rfl
theorem test_decode_setHyst : decode { Request.bare 0b10000 with e := 0b11 } = .ok (.setHyst .handle .c4) := rfl
theorem test_decode_setFm : decode { Request.bare 0b10001 with e := 0b01 } = .ok (.setFm .handle .oneShot) := rfl
theorem test_decode_setTm : decode { Request.bare 0b10010 with e := 0b01 } = .ok (.setTm .handle .interrupt) := rfl
theorem test_decode_setPol : decode { Request.bare 0b10011 with e := 0b00 } = .ok (.setPol .handle .activeLow) := rfl
theorem test_decode_setcThigh : decode { Request.bare 0b10100 with x := .value 1 } = .ok (.setcThigh .handle 1) := rfl
theorem test_decode_setcTlow : decode { Request.bare 0b10101 with x := .value 1 } = .ok (.setcTlow .handle 1) := rfl

/-- The operation table's word of SET_POL, and a word that is no operation. -/
theorem test_table_word : decodeTableWord 8 0x13 = some (.setPol .handle .activeLow) ∧ decodeTableWord 8 0x1F = none :=
  ⟨rfl, rfl⟩

/-- The table word runs as the first operation after reset, and GET_TEMP then answers NotInitialized (program P4 of 95). -/
theorem test_first_step : resp (step (State.reset.withFetchWord 8 0x05)) = only .notInitialized := rfl

/-! ## Register Codec: vectors of 95, parts 2.1, 2.2, 2.3 and 2.5 -/

theorem test_encode_negative_fraction : encodeCelsius (-257 / 10) = 0xE650 ∧ encodeCelsius (-3 / 32) = 0xFFF0 ∧
    encodeCelsius (-1 / 32) = 0x0000 := ⟨by decide +kernel, by decide +kernel, by decide +kernel⟩
theorem test_encode_bounds_and_wrap : encodeCelsius (-75) = 0xB500 ∧ encodeCelsius (2047 / 16) = 0x7FF0 ∧
    encodeCelsius 128 = 0x8000 ∧ encodeCelsius (-200) = 0x3800 ∧ encodeCelsius 300 = 0x2C00 :=
  ⟨by decide +kernel, by decide +kernel, by decide +kernel, by decide +kernel, by decide +kernel⟩
theorem test_decode_corners : decodeCelsius 0x8010 = -2047 / 16 ∧ decodeCelsius 0x8000 = -128 ∧
    decodeCelsius 0xFFFF = -1 / 16 ∧ decodeCelsius 0x7FFF = 2047 / 16 :=
  ⟨by decide +kernel, by decide +kernel, by decide +kernel, by decide +kernel⟩
theorem test_decode_answer : resp (exec (.decode 0xB4F0) fresh) = okData (.celsius (-1201 / 16)) := by decide +kernel
theorem test_neg12 : neg12 0 = 0 ∧ neg12 0x4B0 = 0xB50 ∧ neg12 0x800 = 0x800 ∧ neg12 0xFFF = 1 := by decide
theorem test_rangeCheck : rangeCheck (-75) = .ok ∧ rangeCheck (2047 / 16) = .ok ∧
    rangeCheck (-7503 / 100) = .valueOutOfRange ∧ rangeCheck (4095 / 32) = .valueOutOfRange :=
  ⟨by decide +kernel, by decide +kernel, by decide +kernel, by decide +kernel⟩
theorem test_maskedWrite : resp (exec (.maskedWrite 0x60A0 0x0200 0x0300) fresh) = okData (.word 0x62A0) := by decide
theorem test_maskedWrite_stray : resp (exec (.maskedWrite 0x0000 0x0400 0x0300) fresh) = okData (.word 0x0400) := by
  decide

/-! ## The field table (R28) -/

theorem test_field_masks_cover : fieldMask .cr ||| fieldMask .fh ||| fieldMask .fl ||| fieldMask .tm ||| fieldMask .fm |||
    fieldMask .pol ||| fieldMask .hyst ||| unassignedMask = 0xFFFF := by decide
theorem test_rw_and_drawn : rwMask = fieldMask .cr ||| fieldMask .tm ||| fieldMask .fm ||| fieldMask .pol |||
    fieldMask .hyst ∧ rwMask &&& drawnMask = 0 ∧ rwMask ||| drawnMask = 0xFFFF := by decide

/-- R51 and R171: the numbers of register addresses and result codes. -/
theorem test_numbers : RegAddr.tLow.code = 0x02 ∧ RegAddr.tHigh.code = 0x03 ∧ ResultCode.valueOutOfRange.code = 4 := by
  decide
/-- FH and FL are bits 12 and 11. -/
theorem test_fault_flags : faultHigh 0x1000 = true ∧ faultLow 0x1000 = false ∧ faultLow 0x0800 = true := by decide

/-! ## INIT and the frame: 95, part 2.6 -/

theorem test_init : resp (exec (.init .handle (some ⟨2⟩) ⟨7⟩ 0x48) fresh) = only .ok ∧
    flag (exec (.init .handle (some ⟨2⟩) ⟨7⟩ 0x48) fresh) = some true := by decide
theorem test_init_no_bus : resp (exec (.init .handle none ⟨0⟩ 0x48) fresh) = only .invalidParameter ∧
    flag (exec (.init .handle none ⟨0⟩ 0x48) (ready [] [])) = some true := by decide
theorem test_getTemp_uninitialized : resp (exec (.getTemp .handle) fresh) = only .notInitialized ∧
    resp (exec (.getTemp .null) (ready [] [])) = only .invalidParameter := by decide
theorem test_setcThigh_priority : resp (exec (.setcThigh .null 200) fresh) = only .valueOutOfRange ∧
    resp (exec (.setcThigh .null 20) fresh) = only .invalidParameter ∧
    resp (exec (.setcThigh .handle 20) fresh) = only .notInitialized :=
  ⟨by decide +kernel, by decide +kernel, by decide +kernel⟩

/-! ## Reads -/

/-- R133: `ok(0x19, 0x00)` is 25 degrees; one read of 0x00. -/
theorem test_getTemp : resp (exec (.getTemp .handle) (ready [rd 0x1900] [])) = okData (.celsius 25) ∧
    hist (exec (.getTemp .handle) (ready [rd 0x1900] [])) = [rdEvent .temperature 0x19 0x00] := by decide +kernel
/-- R134 and R135, on the device of program P5: T-High 30, T-Low 20, whatever bytes the environment draws. -/
theorem test_getThigh_store : resp (exec (.getThigh .handle) (st true .devStore [rd 0xFFFF] [])) =
    okData (.celsius 30) := by decide +kernel
theorem test_getTlow_store : resp (exec (.getTlow .handle) (st true .devStore [rd 0xFFFF] [])) =
    okData (.celsius 20) := by decide +kernel
/-- 95, part 2.6: a failed read of T-Low demotes the handle. -/
theorem test_getTlow_error : resp (exec (.getTlow .handle) (ready [.returns .error] [])) = only .busError ∧
    flag (exec (.getTlow .handle) (ready [.returns .error] [])) = some false := by decide
/-- 95, part 2.4, rows 0xA5A5 and 0x0300. -/
theorem test_getCr : resp (exec (.getCr .handle) (ready [rd 0xA5A5] [])) = okData (.convRate .hz1) := by decide
theorem test_getHyst : resp (exec (.getHyst .handle) (ready [rd 0xA5A5] [])) = okData (.hysteresis .c2) := by decide
theorem test_getFm : resp (exec (.getFm .handle) (ready [rd 0xA5A5] [])) = okData (.funcMode .oneShot) := by decide
theorem test_getFm_default : resp (exec (.getFm .handle) (ready [rd 0x0300] [])) = okData (.funcMode .continuous) := by
  decide
theorem test_getTm : resp (exec (.getTm .handle) (ready [rd 0xA5A5] [])) = okData (.thermMode .interrupt) := by decide
theorem test_getPol : resp (exec (.getPol .handle) (ready [rd 0xA5A5] [])) = okData (.polarity .activeHigh) := by decide

/-! ## Writes -/

/-- R137: -25.7 degrees is sent as 0xE6, 0x50. -/
theorem test_setTlow : hist (exec (.setTlow .handle (-257 / 10)) (ready [] [.ok])) = [wrEvent .tLow 0xE6 0x50] := by
  decide +kernel
/-- 95, part 2.6: 200 degrees is written unchecked as 0xC8, 0x00. -/
theorem test_setThigh_unchecked : hist (exec (.setThigh .handle 200) (ready [] [.ok])) = [wrEvent .tHigh 0xC8 0x00] := by
  decide +kernel
/-- R139: the lower bound is written, one step below it is not. -/
theorem test_setcTlow : hist (exec (.setcTlow .handle (-75)) (ready [] [.ok])) = [wrEvent .tLow 0xB5 0x00] ∧
    resp (exec (.setcTlow .handle (-1201 / 16)) (ready [] [.ok])) = only .valueOutOfRange := by
  decide +kernel
/-- R138: 50 degrees is sent as 0x32, 0x00. -/
theorem test_setcThigh : hist (exec (.setcThigh .handle 50) (ready [] [.ok])) = [wrEvent .tHigh 0x32 0x00] := by
  decide +kernel
/-- 95, part 2.5, row 0xA5A5: the value written back. -/
theorem test_setCr : hist (exec (.setCr .handle .hz16) (ready [rd 0xA5A5] [.ok])) =
    [rdEvent .configuration 0xA5 0xA5, wrEvent .configuration 0xE5 0xA5] := by decide
theorem test_setHyst : hist (exec (.setHyst .handle .c4) (ready [rd 0xA5A5] [.ok])) =
    [rdEvent .configuration 0xA5 0xA5, wrEvent .configuration 0xA5 0xB5] := by decide
theorem test_setFm : hist (exec (.setFm .handle .continuous) (ready [rd 0xA5A5] [.ok])) =
    [rdEvent .configuration 0xA5 0xA5, wrEvent .configuration 0xA6 0xA5] := by decide
theorem test_setTm : hist (exec (.setTm .handle .comparator) (ready [rd 0xA5A5] [.ok])) =
    [rdEvent .configuration 0xA5 0xA5, wrEvent .configuration 0xA1 0xA5] := by decide
theorem test_setPol : hist (exec (.setPol .handle .activeLow) (ready [rd 0xA5A5] [.ok])) =
    [rdEvent .configuration 0xA5 0xA5, wrEvent .configuration 0xA5 0x25] := by decide
/-- 95, part 2.6: a failed read issues no write. -/
theorem test_setTm_read_error : hist (exec (.setTm .handle .interrupt) (ready [.returns .error] [.ok])) =
    [.rd ⟨1⟩ 0x48 .configuration .error] := by decide
/-- 95, part 2.6: a failed write demotes the handle. -/
theorem test_setTm_write_error : resp (exec (.setTm .handle .interrupt) (ready [rd 0x60A0] [.error 0])) = only .busError ∧
    flag (exec (.setTm .handle .interrupt) (ready [rd 0x60A0] [.error 0])) = some false := by decide
/-- Program P2, step 3: under DEV_STORE the drawn FH and FL are written back as read. -/
theorem test_setHyst_store : hist (exec (.setHyst .handle .c4)
      { st true .devStore [rd 0x1800] [.ok] with
        dev := { temperature := 0, configuration := 0x62A0, tLow := 0, tHigh := 0 } }) =
    [rdEvent .configuration 0x7A 0xA0, wrEvent .configuration 0x7A 0xB0] := by decide
/-- U15: a call that never returns leaves the operation stuck. -/
theorem test_never : exec (.getTemp .handle) (ready [.never] []) = .fault .collaboratorNeverReturns := rfl

/-! ## Witnesses: inputs that meet the hypotheses of each statement -/

theorem witness_StepRunsDecodedRequest :
    (fresh.issueFirst (Request.bare 0x05)).requests = .one (Request.bare 0x05) :: [] ∧
    decode (Request.bare 0x05) = .ok (.getTemp .handle) := ⟨rfl, rfl⟩

theorem witness_StepWaitsForRequest : fresh.requests = [] := rfl

theorem witness_StepRefusesUndefinedAndOverlapping :
    (fresh.issueFirst (Request.bare 0x1F)).requests = .one (Request.bare 0x1F) :: [] ∧
    decode (Request.bare 0x1F) = .error (.unknownSelector 0x1F) ∧
    ({ fresh with requests := [.overlapping (Request.bare 0) (Request.bare 0)] } : State).requests =
      .overlapping (Request.bare 0) (Request.bare 0) :: [] := ⟨rfl, rfl, rfl⟩

theorem witness_UndefinedRequestsAreRejectedByName :
    0x15 < (Request.bare 0x16).op.toNat ∧
    (({ Request.bare 0x11 with e := 3 } : Request).op = 0x11 ∧ ({ Request.bare 0x11 with e := 3 } : Request).e = 3) ∧
    (({ Request.bare 0x13 with e := 2 } : Request).op = 0x13 ∧
      2 ≤ ({ Request.bare 0x13 with e := 2 } : Request).e.toNat) ∧
    Request.usesCelsius 0x15 = true ∧ CelsiusPort.negInf.hasValue = false := by decide

theorem witness_RangeCheckIsExactAndInclusive :
    ((-75 : ℚ) ≤ -75 ∧ (-75 : ℚ) ≤ 127.9375) ∧ ((-75 : ℚ) ≤ 127.9375 ∧ (127.9375 : ℚ) ≤ 127.9375) ∧
    ((-7501 / 100 : ℚ) < -75 ∨ (127.9375 : ℚ) < -7501 / 100) ∧
    ((128 : ℚ) < -75 ∨ (127.9375 : ℚ) < 128) := by norm_num

theorem witness_MaskedWriteReplacesMaskedBits :
    (0x0200 : Word) &&& ~~~0x0300 = 0 ∧ (0x00A0 : Word) = 0x60A0 &&& 0x0FFF := by decide

theorem witness_StrayBitsAreOnlySet : (10 : Nat) < 16 ∧ (0x0300 : Word).getLsbD 10 = false := by decide

theorem witness_FieldUpdatePreservesOtherBits :
    Field.cr ≠ .fh ∧ Field.cr ≠ .fl ∧ 3 < 2 ^ fieldWidth .cr ∧ 1 < 2 ^ fieldWidth .pol := by decide

theorem witness_RoundTripTruncatesTowardZero : inRange (-75) ∧ inRange (2047 / 16) ∧ inRange (-1 / 32) := by
  unfold inRange; norm_num

theorem witness_RangeCheckedValuesAreTheListedOnes :
    rangeCheck (-75) = .ok ∧ (-1200 : ℤ) ≤ -1200 ∧ (-1200 : ℤ) ≤ 2047 ∧ (-1200 : ℤ) ≤ 2047 ∧ (2047 : ℤ) ≤ 2047 :=
  ⟨by decide +kernel, by norm_num⟩

theorem witness_BytesTravelBigEndian :
    readAnswer .tHigh (ready [rd 0x3200] []) = some (.ok 0x32 0x00) := by decide

theorem witness_DeviceAnswersReads :
    (ready [rd 0x3200] []).reads = rd 0x3200 :: [] ∧ fresh.reads = [] ∧
    readReply .tLow (ready [.returns .error] []) = .returns .error ∧
    readReply .tLow (ready [rd 0x3200] []) = .returns (.ok 0x32 0x00) ∧
    (ready [rd 0x3200] []).device = .oracle ∧ (st true .devStore [rd 0x3200] []).device = .devStore := by decide

theorem witness_WritesReachTheDevice :
    writeAnswer .tLow 0x3200 (ready [] [.ok]) = some .ok ∧
    (ready [] [.error 5]).writes = .error 5 :: [] ∧ RegAddr.tHigh ≠ .tLow := by decide

theorem witness_TemperatureReadsAnswerDecodedValue :
    temperatureRead (.getTemp .null) = some (.temperature, .null) ∧
    temperatureRead (.getThigh .handle) = some (.tHigh, .handle) ∧ fresh.handle.init = false ∧
    (ready [.returns .error] []).handle.init = true ∧
    readAnswer .tHigh (ready [.returns .error] []) = some .error ∧
    temperatureRead (.getTlow .handle) = some (.tLow, .handle) ∧
    readAnswer .tLow (ready [rd 0x800F] []) = some (.ok 0x80 0x0F) := by decide

theorem witness_ThresholdWritesSendEncodedValue :
    thresholdWrite (.setTlow .null 1) = some (.tLow, .null, 1) ∧
    thresholdWrite (.setThigh .handle 128) = some (.tHigh, .handle, 128) ∧ fresh.handle.init = false ∧
    (ready [] [.ok]).handle.init = true ∧
    writeAnswer .tHigh (BitVec.ofInt 16 (16 * truncSteps 128)) (ready [] [.error 7]) = some .error ∧
    writeAnswer .tHigh (BitVec.ofInt 16 (16 * truncSteps 128)) (ready [] [.ok]) = some .ok := ⟨rfl, rfl, rfl, rfl, rfl, rfl⟩

theorem witness_CheckedWritesSendEncodedValue :
    composite (.setcTlow .handle (-75)) = some (.tLow, .handle, -75) ∧
    composite (.setcThigh .handle (2047 / 16)) = some (.tHigh, .handle, 2047 / 16) ∧
    inRange (-75) ∧ inRange (2047 / 16) ∧ (ready [] [.ok]).handle.init = true ∧
    writeAnswer .tLow (BitVec.ofInt 16 (16 * truncSteps (-75))) (ready [] [.ok]) = some .ok :=
  ⟨rfl, rfl, by unfold inRange; norm_num, by unfold inRange; norm_num, rfl, rfl⟩

theorem witness_OutOfRangeHasPriority :
    composite (.setcThigh .null 128) = some (.tHigh, .null, 128) ∧ ¬ inRange 128 ∧ ¬ inRange (-1201 / 16) :=
  ⟨rfl, by unfold inRange; norm_num, by unfold inRange; norm_num⟩

theorem witness_CheckedWriteInRangeIsPlainWrite : inRange (-75) := by unfold inRange; norm_num

theorem witness_FieldReadsAnswerMember :
    (∃ m, fieldRead (.getFm .null) = some (.null, m)) ∧ (∃ m, fieldRead (.getPol .handle) = some (.handle, m)) ∧
    fresh.handle.init = false ∧ (ready [] []).handle.init = true ∧
    readAnswer .configuration (ready [.returns .error] []) = some .error ∧
    readAnswer .configuration (ready [rd 0x0300] []) = some (.ok 0x03 0x00) :=
  ⟨⟨_, rfl⟩, ⟨_, rfl⟩, rfl, rfl, rfl, rfl⟩

theorem witness_FieldWritesReadModifyWrite :
    fieldWrite (.setFm .null .oneShot) = some (.null, 0xFCFF, 0x0100) ∧
    fieldWrite (.setCr .handle .hz16) = some (.handle, 0x9FFF, 0x6000) ∧
    fresh.handle.init = false ∧ (ready [rd 0x00A0] [.ok]).handle.init = true ∧
    readAnswer .configuration (ready [.returns .error] []) = some .error ∧
    readAnswer .configuration (ready [rd 0x00A0] [.ok]) = some (.ok 0x00 0xA0) ∧
    (0x60A0 : Word) = (((0x00 : Byte) ++ (0xA0 : Byte)) &&& 0x9FFF) ||| 0x6000 ∧
    writeAnswer .configuration 0x60A0 (readHalf 0x00 0xA0 (ready [rd 0x00A0] [.ok])) = some .ok ∧
    writeAnswer .configuration 0x60A0 (readHalf 0x00 0xA0 (ready [rd 0x00A0] [.error 1])) = some .error := by
  decide

theorem witness_NullHandleAnswersInvalidParameter :
    gatedHandle (.setPol .null .activeLow) = some .null ∧
    composite (.setcTlow .null 20) = some (.tLow, .null, 20) ∧ inRange 20 ∧
    composite (.setcTlow .null 200) = some (.tLow, .null, 200) ∧ ¬ inRange 200 ∧
    isPure (.rangeCheck 200) = true :=
  ⟨rfl, rfl, by unfold inRange; norm_num, rfl, by unfold inRange; norm_num, rfl⟩

theorem witness_UninitializedHandleFailsFast :
    gatedHandle (.getTm .handle) = some .handle ∧ fresh.handle.init = false ∧
    composite (.setcThigh .handle 20) = some (.tHigh, .handle, 20) ∧ inRange 20 ∧
    isInit (.encode 0) = false ∧ ∃ t, exec (.encode 0) fresh = .next t :=
  ⟨rfl, rfl, rfl, by unfold inRange; norm_num, rfl, _, rfl⟩

theorem witness_PrologueChecksInOrder :
    gatedHandle (.getTemp .null) = some .null ∧ gatedHandle (.getTemp .handle) = some .handle ∧
    fresh.handle.init = false ∧
    ∃ t, exec (.getTemp .handle) (ready [rd 0] []) = .next t ∧ t.history ≠ (ready [rd 0] []).history :=
  ⟨rfl, rfl, rfl, _, rfl, by decide⟩

/-- Meets the hypothesis of every statement about a next state that ends with BusError: OnlyBusErrorDemotes,
HandleStateMachine, ResultCodesPerOperation, TransactionsPerOperation, OperationsLeaveTheRest. -/
theorem witness_bus_error : (ready [.returns .error] []).handle.init = true ∧
    gatedHandle (.getTemp .handle) = some .handle ∧ isInit (.getTemp .handle) = false ∧
    (true, RegAddr.tLow) ∉ transactions (.getTemp .handle) ∧
    ∃ t, exec (.getTemp .handle) (ready [.returns .error] []) = .next t ∧
      t.response = some { status := .busError, data := none } ∧ t.handle.init = false :=
  ⟨rfl, rfl, rfl, by decide, _, rfl, rfl, rfl⟩

/-- Meets the hypotheses of BusErrorLastsUntilInit with operations after the error, INITs that fail among them, and for each
kind of operation that still answers NotInitialized. -/
theorem witness_BusErrorLastsUntilInit :
    (∃ t, exec (.getTemp .handle) (ready [.returns .error] []) = .next t ∧
      t.response = some { status := .busError, data := none }) ∧
    (∀ b d a, Instr.init .handle (some b) d a ∉
      [.init .null (some b) d a, .init .handle none d a, .getPol .handle, .decode 0x1900]) ∧
    needsReady (.setPol .handle .activeHigh) ∧ needsReady (.setcThigh .handle (-75)) :=
  ⟨⟨_, rfl, rfl⟩, by simp, .inl rfl, .inr ⟨.tHigh, -75, rfl, by unfold inRange; norm_num⟩⟩

/-- Meets the hypotheses of the same statements with Ok, and of HistoryAndResponseAreNotRead. -/
theorem witness_ok_end : ∃ t, exec (.getTemp .handle) (ready [rd 0x1900] []) = .next t ∧
    ∃ r, t.response = some r ∧ r.status = .ok := ⟨_, rfl, _, rfl, rfl⟩

/-- Meets the hypotheses of OnlyBusErrorDemotes and TransactionsPerOperation with another failure. -/
theorem witness_other_end : ∃ t, exec (.getTemp .null) fresh = .next t ∧
    ∃ r, t.response = some r ∧ r.status ≠ .busError ∧ r.status ≠ .ok := ⟨_, rfl, _, rfl, by decide, by decide⟩

/-- HandleStateMachine: from Uninitialized to Ready. -/
theorem witness_HandleStateMachine : fresh.handle.init = false ∧
    ∃ t, exec (.init .handle (some ⟨1⟩) ⟨0⟩ 0x48) fresh = .next t ∧ t.handle.init = true := ⟨rfl, _, rfl, rfl⟩

theorem witness_OnlyUnreturnedCallStops :
    exec (.setTlow .handle 0) (ready [] [.never]) = .fault .collaboratorNeverReturns := rfl

theorem witness_UnreturnedCallIsStuck : (ready [.never] [.never]).handle.init = true ∧
    temperatureRead (.getTemp .handle) = some (.temperature, .handle) ∧
    readAnswer .temperature (ready [.never] [.never]) = none ∧
    fieldWrite (.setCr .handle .hz1) = some (.handle, 0x9FFF, 0x2000) ∧
    readAnswer .configuration (ready [.never] [.never]) = none ∧
    thresholdWrite (.setTlow .handle 0) = some (.tLow, .handle, 0) ∧
    writeAnswer .tLow (BitVec.ofInt 16 (16 * truncSteps 0)) (ready [.never] [.never]) = none :=
  ⟨rfl, rfl, rfl, rfl, rfl, rfl, rfl⟩

/-- The clause of a GET on a field. -/
theorem witness_UnreturnedCallIsStuck_fieldRead : (ready [.never] []).handle.init = true ∧
    (∃ m, fieldRead (.getHyst .handle) = some (.handle, m)) ∧
    readAnswer .configuration (ready [.never] []) = none := ⟨rfl, ⟨_, rfl⟩, rfl⟩

/-- The clause of the write half of a SET on a field. -/
theorem witness_UnreturnedCallIsStuck_writeHalf : (ready [rd 0x00A0] [.never]).handle.init = true ∧
    fieldWrite (.setCr .handle .hz16) = some (.handle, 0x9FFF, 0x6000) ∧
    readAnswer .configuration (ready [rd 0x00A0] [.never]) = some (.ok 0x00 0xA0) ∧
    (0x60A0 : Word) = (((0x00 : Byte) ++ (0xA0 : Byte)) &&& 0x9FFF) ||| 0x6000 ∧
    writeAnswer .configuration 0x60A0 (readHalf 0x00 0xA0 (ready [rd 0x00A0] [.never])) = none := by decide

/-- The clause of a range-checked composite, at the lower bound. -/
theorem witness_UnreturnedCallIsStuck_composite : (ready [] [.never]).handle.init = true ∧
    composite (.setcTlow .handle (-75)) = some (.tLow, .handle, -75) ∧ inRange (-75) ∧
    writeAnswer .tLow (BitVec.ofInt 16 (16 * truncSteps (-75))) (ready [] [.never]) = none :=
  ⟨rfl, rfl, by unfold inRange; norm_num, rfl⟩

theorem witness_StepAppendsTransactionsOfTheHandle :
    (∀ rest, ((ready [rd 0] []).issueFirst (Request.bare 0x05)).requests ≠ .blockReset :: rest) ∧
    ∃ t, step ((ready [rd 0] []).issueFirst (Request.bare 0x05)) = .next t ∧ t.history.length = 1 :=
  ⟨fun _ h => by simp [State.issueFirst] at h, _, rfl, by decide⟩

theorem witness_UninitializedFieldsAreNotRead : isInit (.getTemp .handle) = false ∧ fresh.handle.init = false ∧
    ∃ t, exec (.getTemp .handle) fresh = .next t := ⟨rfl, rfl, _, rfl⟩

theorem witness_StoredThresholdReadsBack : (st true .devStore [rd 0] [.ok]).device = .devStore ∧
    (st true .devStore [rd 0] [.ok]).handle.init = true ∧ inRange 50 ∧
    writeAnswer .tHigh (encodeCelsius 50) (st true .devStore [rd 0] [.ok]) = some .ok ∧
    ∃ t, exec (.setThigh .handle 50) (st true .devStore [rd 0] [.ok]) = .next t ∧
      readReply .tHigh t = .returns (.ok 0 0) :=
  ⟨rfl, rfl, by unfold inRange; norm_num, rfl, _, rfl, rfl⟩

theorem witness_StoredFieldReadsBack :
    setThenGet (.setFm .handle .oneShot) = some (.getFm .handle, .funcMode .oneShot) ∧
    (st true .devStore [rd 0x1800, rd 0xFFFF] [.ok]).device = .devStore ∧
    ∃ t, exec (.setFm .handle .oneShot) (st true .devStore [rd 0x1800, rd 0xFFFF] [.ok]) = .next t ∧
      t.response = some { status := .ok, data := none } ∧
      readReply .configuration t = .returns (.ok 0xFF 0xFF) :=
  ⟨rfl, rfl, _, rfl, rfl, rfl⟩

/-- A state with a history: T-Low was last written, successfully, with the value it holds. -/
def written : State := { ready [rd 0] [] with history := [wrEvent .tLow 0x14 0x00] }

/-- The invariant holds of that state, and a step leads on from it. -/
theorem witness_StepKeepsInvariant :
    Inv (written.issueFirst (Request.bare 0x05)) ∧
    ∃ t, step (written.issueFirst (Request.bare 0x05)) = .next t ∧ t.history.length = 2 := by
  refine ⟨⟨rfl, by decide, fun a v h => ?_⟩, _, rfl, by decide⟩
  cases a <;> simp [written, ready, st, State.issueFirst, wrEvent, lastWrite] at h
  subst h
  decide

/-- A state that was written to and is then to be reset and initialised again. -/
def beforeReset : State :=
  { written with
    requests := [.blockReset, .one (encode (.init .handle (some ⟨2⟩) ⟨0⟩ devAddr))], device := .devStore }

theorem witness_BlockResetKeepsTheSensor :
    beforeReset.requests = .blockReset :: [.one (encode (.init .handle (some ⟨2⟩) ⟨0⟩ devAddr))] := rfl

theorem witness_ResetThenInitFindsTheLastWrites :
    beforeReset.requests = .blockReset :: .one (encode (.init .handle (some ⟨2⟩) ⟨0⟩ devAddr)) :: [] ∧
    decode (encode (.init .handle (some ⟨2⟩) ⟨0⟩ devAddr)) = .ok (.init .handle (some ⟨2⟩) ⟨0⟩ devAddr) ∧
    beforeReset.device = .devStore ∧
    ∃ t u, step beforeReset = .next t ∧ step t = .next u ∧
      readReply .tHigh u = .returns (.ok 0 0) ∧ readReply .tLow u = .returns (.ok 0 0) :=
  ⟨rfl, rfl, rfl, _, _, rfl, rfl, rfl, rfl⟩

/-- R200, R201: the flag is cleared and the history emptied, and the thresholds of `written` are still there. -/
theorem test_block_reset : flag (step beforeReset) = some false ∧ hist (step beforeReset) = [] ∧
    ∃ t, step beforeReset = .next t ∧ t.dev.tLow = 0x1400 ∧ t.dev.tHigh = 0x1E00 := ⟨rfl, rfl, _, rfl, rfl, rfl⟩

/-- R5: an INIT with `DEV_ADDR` makes the handle address the sensor at 0x48. -/
theorem test_dev_addr : devAddr = 0x48 ∧
    ∃ t, exec (.init .handle (some ⟨2⟩) ⟨0⟩ devAddr) fresh = .next t ∧ addressesSensor t = true :=
  ⟨rfl, _, rfl, by decide⟩

theorem witness_SafeStepAlwaysCompletes :
    EnvironmentSafe ((ready [rd 0] [.error 3]).issueFirst (encode (.setCr .handle .hz4))) ∧
    ((ready [rd 0] [.error 3]).issueFirst (encode (.setCr .handle .hz4))).requests =
      [.one (encode (.setCr .handle .hz4))] := ⟨⟨rfl, rfl, rfl⟩, rfl⟩

end Sys2Proof.Tests
end

section
/-!
PROOFS. The bytes on the wire (R54) and the transactions of an operation (R60). An operation is put together from `prologue`,
`rangeChecked`, `readReg`, `writeReg` and `finish`; each of them gets one rule about the row of transactions it follows, and the
row of an operation comes from the rules of its parts.
-/

namespace Sys2Proof.Proofs

open Sys2Proof.Machine Sys2Proof.Spec

/-! ## Bytes on the wire -/

/-- Settles O22: the two bytes of a word are its quotient and its remainder by 256. -/
theorem bytesTravelBigEndian : Obligations.BytesTravelBigEndian := by
  unfold Obligations.BytesTravelBigEndian
  constructor
  · intro a b0 b1 k s hok
    exact ⟨joinBytes b0 b1, joinBytes_toNat b0 b1, readReg_of_ok k hok⟩
  · intro a v ans s
    exact ⟨firstByte v, secondByte v, firstByte_toNat v, secondByte_toNat v, afterWrite_history a v ans s⟩

/-! ## Transactions against a row of the table -/

/-- Transactions that run through a row: each is the row's next one, the first that answers `error` is the last and the result is
then `BusError`, and if none does the row is used up and the result is `Ok`. -/
inductive RunsThrough : List (Bool × RegAddr) → List Event → ResultCode → Prop
  | finished : RunsThrough [] [] .ok
  | failed {e : Event} (row : List (Bool × RegAddr)) (he : answeredOk e = false) :
      RunsThrough (shape e :: row) [e] .busError
  | answered {e : Event} {row : List (Bool × RegAddr)} {es : List Event} {c : ResultCode}
      (he : answeredOk e = true) (hes : RunsThrough row es c) :
      RunsThrough (shape e :: row) (e :: es) c

namespace RunsThrough

variable {row : List (Bool × RegAddr)} {es : List Event} {c : ResultCode}

theorem isPrefix (h : RunsThrough row es c) : es.map shape <+: row := by
  induction h with
  | finished => exact List.prefix_refl []
  | failed row _ => simp
  | answered _ _ ih => simpa using ih

theorem status_ok_or_busError (h : RunsThrough row es c) : c = .ok ∨ c = .busError := by
  induction h with
  | finished => exact .inl rfl
  | failed _ _ => exact .inr rfl
  | answered _ _ ih => exact ih

theorem whole_row_of_ok (h : RunsThrough row es c) (hc : c = .ok) :
    es.map shape = row ∧ es.all answeredOk = true := by
  induction h with
  | finished => exact ⟨rfl, rfl⟩
  | failed _ _ => cases hc
  | answered he _ ih =>
    obtain ⟨hrow, hall⟩ := ih hc
    exact ⟨by simp [hrow], by simp only [List.all_cons, he, hall, Bool.and_self]⟩

theorem last_failed_of_busError (h : RunsThrough row es c) (hc : c = .busError) :
    ∃ e ∈ es.getLast?, answeredOk e = false ∧ es.dropLast.all answeredOk = true := by
  induction h with
  | finished => cases hc
  | failed _ he => exact ⟨_, rfl, he, rfl⟩
  | @answered _ _ es _ he _ ih =>
    obtain ⟨e, hlast, hfailed, hall⟩ := ih hc
    have hne : es ≠ [] := by rintro rfl; cases hlast
    refine ⟨e, ?_, hfailed, ?_⟩
    · rw [← List.singleton_append, List.getLast?_append_of_ne_nil _ hne]
      exact hlast
    · rw [List.dropLast_cons_of_ne_nil hne, List.all_cons, he, hall, Bool.and_self]

end RunsThrough

/-! ## Outcomes that follow a row -/

/-- From `s` to `t` the history grew by transactions that run through `row`, and the response carries the result. -/
def Completes (row : List (Bool × RegAddr)) (s t : State) : Prop :=
  ∃ es r, t.history = s.history ++ es ∧ t.response = some r ∧ RunsThrough row es r.status

/-- The operation was refused before its first transaction: by its prologue, its range check or its own check of the operands
(R132, R176, R177). -/
def RefusedAtOnce (s t : State) : Prop :=
  ∃ c d, c ≠ .ok ∧ c ≠ .busError ∧ t = s.respond c d

/-- An outcome which, if it is a next state, was refused at once or has completed `row`. -/
def Follows (row : List (Bool × RegAddr)) (s : State) (out : Out) : Prop :=
  ∀ t, out = .next t → RefusedAtOnce s t ∨ Completes row s t

/-- An outcome which, if it is a next state, has completed `row`. -/
def AlwaysCompletes (row : List (Bool × RegAddr)) (s : State) (out : Out) : Prop :=
  ∀ t, out = .next t → Completes row s t

section

variable {row : List (Bool × RegAddr)} {s : State}

theorem AlwaysCompletes.follows {out : Out} (h : AlwaysCompletes row s out) : Follows row s out :=
  fun t ht => .inr (h t ht)

/-- One transaction answered `ok`, then what completes the rest of the row. -/
theorem Completes.cons {s' t : State} {e : Event} (hhist : s'.history = s.history ++ [e])
    (he : answeredOk e = true) (h : Completes row s' t) : Completes (shape e :: row) s t := by
  obtain ⟨es, r, ht, hr, hes⟩ := h
  exact ⟨e :: es, r, by simp [ht, hhist], hr, .answered he hes⟩

/-! ### The parts of an operation -/

theorem finish_refusal_follows {c : ResultCode} (d : Option Data) (hok : c ≠ .ok) (hbus : c ≠ .busError) :
    Follows row s (finish c d s) := by
  rintro t ⟨⟩
  exact .inl ⟨c, d, hok, hbus, rfl⟩

theorem finish_ok_completes {s' : State} (d : Option Data) (hhist : s'.history = s.history) :
    AlwaysCompletes [] s (finish .ok d s') := by
  rintro t ⟨⟩
  exact ⟨[], _, by simp [hhist], rfl, .finished⟩

/-- The error path after a transaction `e` that answered `error`: whatever was to follow in the row does not. -/
theorem busFailure_completes {s' : State} {e : Event} (hhist : s'.history = s.history ++ [e])
    (he : answeredOk e = false) : AlwaysCompletes (shape e :: row) s (busFailure s') := by
  rintro t ⟨⟩
  exact ⟨[e], _, by simp [hhist], rfl, .failed row he⟩

theorem readReg_completes {a : RegAddr} {k : Word → State → Out}
    (hk : ∀ v s', AlwaysCompletes row s' (k v s')) :
    AlwaysCompletes ((false, a) :: row) s (readReg a k s) := by
  intro t ht
  rcases readReg_cases a k s with ⟨_, e⟩ | ⟨_, e⟩ | ⟨b0, b1, _, e⟩ <;> rw [e] at ht
  · cases ht
  · exact busFailure_completes (afterRead_history a .error s) rfl t ht
  · exact (hk _ _ t ht).cons (afterRead_history a (.ok b0 b1) s) rfl

theorem writeReg_completes {a : RegAddr} {v : Word} {k : State → Out}
    (hk : ∀ s', AlwaysCompletes row s' (k s')) :
    AlwaysCompletes ((true, a) :: row) s (writeReg a v k s) := by
  intro t ht
  rcases writeReg_cases a v k s with ⟨_, e⟩ | ⟨_, e⟩ | ⟨_, e⟩ <;> rw [e] at ht
  · cases ht
  · exact busFailure_completes (afterWrite_history a v .error s) rfl t ht
  · exact (hk _ t ht).cons (afterWrite_history a v .ok s) rfl

theorem writeReg_done_completes {a : RegAddr} {v : Word} :
    AlwaysCompletes [(true, a)] s (writeReg a v done s) :=
  writeReg_completes fun _ => finish_ok_completes none rfl

theorem prologue_follows {h : HandleRef} {k : State → Out} (hk : Follows row s (k s)) :
    Follows row s (prologue h k s) := by
  rcases prologue_cases h k s with ⟨_, e⟩ | ⟨_, _, e⟩ | ⟨_, _, e⟩ <;> rw [e]
  · exact finish_refusal_follows none (by decide) (by decide)
  · exact finish_refusal_follows none (by decide) (by decide)
  · exact hk

theorem rangeChecked_follows {x : ℚ} {k : State → Out} (hk : Follows row s (k s)) :
    Follows row s (rangeChecked x k s) := by
  rcases rangeChecked_cases x k s with ⟨_, e⟩ | ⟨_, e⟩ <;> rw [e]
  · exact hk
  · exact finish_refusal_follows none (by decide) (by decide)

/-! ### The common forms of the operations -/

theorem readCelsius_follows (a : RegAddr) (h : HandleRef) : Follows [(false, a)] s (readCelsius a h s) :=
  prologue_follows (readReg_completes fun _ _ => finish_ok_completes _ rfl).follows

theorem getField_follows (f : Field) (map : Word → Data) (h : HandleRef) :
    Follows [(false, .configuration)] s (getField f map h s) :=
  prologue_follows (readReg_completes fun _ _ => finish_ok_completes _ rfl).follows

theorem writeCelsius_follows (a : RegAddr) (h : HandleRef) (x : ℚ) :
    Follows [(true, a)] s (writeCelsius a h x s) :=
  prologue_follows writeReg_done_completes.follows

theorem setField_follows (f : Field) (code : Nat) (h : HandleRef) :
    Follows [(false, .configuration), (true, .configuration)] s (setField f code h s) :=
  prologue_follows (readReg_completes fun _ _ => writeReg_done_completes).follows

theorem execRangeCheck_follows (x : ℚ) : Follows [] s (execRangeCheck x s) := by
  unfold execRangeCheck rangeCheck
  split
  · exact finish_refusal_follows none (by decide) (by decide)
  · exact (finish_ok_completes none rfl).follows

theorem execInit_follows (h : HandleRef) (bus : Option BusRef) (d : DevIdx) (a : DevAddr) :
    Follows [] s (execInit h bus d a s) := by
  cases h with
  | null => exact finish_refusal_follows none (by decide) (by decide)
  | handle =>
    cases bus with
    | none => exact finish_refusal_follows none (by decide) (by decide)
    | some b => exact (finish_ok_completes none (State.initialise_history s b a)).follows

end

/-! ## The table of R60 -/

theorem exec_follows_transactions (i : Instr) (s : State) : Follows (transactions i) s (exec i s) := by
  cases i with
  | encode x => exact (finish_ok_completes _ rfl).follows
  | decode r => exact (finish_ok_completes _ rfl).follows
  | maskedWrite cur newv mask => exact (finish_ok_completes _ rfl).follows
  | rangeCheck x => exact execRangeCheck_follows x
  | init h bus d a => exact execInit_follows h bus d a
  | getTemp h => exact readCelsius_follows .temperature h
  | getThigh h => exact readCelsius_follows .tHigh h
  | getTlow h => exact readCelsius_follows .tLow h
  | setThigh h x => exact writeCelsius_follows .tHigh h x
  | setTlow h x => exact writeCelsius_follows .tLow h x
  | getCr h => exact getField_follows .cr (fun f => .convRate (mapConvRate f)) h
  | getHyst h => exact getField_follows .hyst (fun f => .hysteresis (mapHysteresis f)) h
  | getFm h => exact getField_follows .fm (fun f => .funcMode (mapFuncMode f)) h
  | getTm h => exact getField_follows .tm (fun f => .thermMode (mapThermMode f)) h
  | getPol h => exact getField_follows .pol (fun f => .polarity (mapPolarity f)) h
  | setCr h e => exact setField_follows .cr e.code h
  | setHyst h e => exact setField_follows .hyst e.code h
  | setFm h e => exact setField_follows .fm e.code h
  | setTm h e => exact setField_follows .tm e.code h
  | setPol h e => exact setField_follows .pol e.code h
  | setcThigh h x => exact rangeChecked_follows (writeCelsius_follows .tHigh h x)
  | setcTlow h x => exact rangeChecked_follows (writeCelsius_follows .tLow h x)

/-- Settles O42: an operation is refused before its first transaction, or its transactions run through its row. -/
theorem transactionsPerOperation : Obligations.TransactionsPerOperation := by
  unfold Obligations.TransactionsPerOperation
  intro i s t ht
  rcases exec_follows_transactions i s t ht with ⟨c, d, hok, hbus, rfl⟩ | ⟨es, r, hhist, hresp, hrun⟩
  · exact ⟨[], ⟨c, d⟩, by simp, rfl, List.nil_prefix, fun h => absurd h hok, fun h => absurd h hbus,
      fun _ _ => rfl⟩
  · exact ⟨es, r, hhist, hresp, hrun.isPrefix, hrun.whole_row_of_ok, hrun.last_failed_of_busError,
      fun hok hbus => (hrun.status_ok_or_busError.elim hok hbus).elim⟩

end Sys2Proof.Proofs
end

section
/-!
PROOFS. The reserved bits [3:0] of format T (R97): the code stands in bits [15:4], which is all that DECODE reads, and ENCODE puts
four zero bits below it.
-/

namespace Sys2Proof.Proofs

open Sys2Proof.Machine Sys2Proof.Spec

/-! ## ENCODE writes the reserved bits as 0 -/

theorem encodeCelsius_eq_append (x : ℚ) : encodeCelsius x = celsiusCode x ++ 0#4 := by
  apply BitVec.eq_of_toNat_eq
  have happend : (celsiusCode x ++ 0#4).toNat = (celsiusCode x).toNat <<< 4 ||| 0 := BitVec.toNat_append _ _
  simp only [encodeCelsius, BitVec.toNat_shiftLeft, BitVec.toNat_setWidth, happend, Nat.or_zero, Nat.shiftLeft_eq]
  omega

theorem encodeCelsius_and_reserved (x : ℚ) : encodeCelsius x &&& 0x000F = 0 := by
  have hmask : (0x000F : Word) = 0#12 ++ 0xF#4 := by decide
  rw [encodeCelsius_eq_append, hmask, BitVec.and_append, BitVec.and_zero, BitVec.zero_and]
  rfl

/-! ## DECODE ignores the reserved bits -/

/-- DECODE reads its operand only through bits [15:4]: the sign it tests is the top bit of the code (R117). -/
theorem decodeCelsius_congr {r r' : Word} (h : r.extractLsb' 4 12 = r'.extractLsb' 4 12) :
    decodeCelsius r = decodeCelsius r' := by
  have msb_eq_msb_code (v : Word) : v.msb = (v.extractLsb' 4 12).msb := by
    simp [BitVec.msb_eq_getLsbD_last]
  simp only [decodeCelsius, msb_eq_msb_code, h]

theorem decodeCelsius_clear_reserved (r : Word) : decodeCelsius (r &&& 0xFFF0) = decodeCelsius r := by
  apply decodeCelsius_congr
  rw [BitVec.extractLsb'_and]
  exact BitVec.and_allOnes

/-- The reserved bits of a value lie in its second byte on the wire (R54). -/
theorem append_clear_reserved (b0 b1 : Byte) : b0 ++ (b1 &&& 0xF0) = ((b0 ++ b1 : Word) &&& 0xFFF0) := by
  have hmask : (0xFFF0 : Word) = BitVec.allOnes 8 ++ 0xF0#8 := by decide
  rw [hmask, BitVec.and_append, BitVec.and_allOnes]
  rfl

/-! ## The obligation -/

/-- Settles O19: ENCODE puts zeros below the code, and DECODE reads nothing but the code. -/
theorem reservedTemperatureBits : Obligations.ReservedTemperatureBits := by
  unfold Obligations.ReservedTemperatureBits
  refine ⟨fun x s => ⟨encodeCelsius x, rfl, encodeCelsius_and_reserved x⟩,
    fun r s => ⟨decodeCelsius r, rfl, ?_⟩, fun b0 b1 => ?_⟩
  · rw [← decodeCelsius_clear_reserved r]
    rfl
  · rw [append_clear_reserved, decodeCelsius_clear_reserved]

end Sys2Proof.Proofs
end

section
/-!
PROOFS. The masked write (R122). A word is the join of its part outside the mask and its part inside; MASKED_WRITE keeps the
first part of the current value and joins the new value to it, so both halves of the rule are read off part by part.
-/

namespace Sys2Proof.Proofs

open Sys2Proof.Machine Sys2Proof.Spec

/-! ## The two parts of a word -/

/-- The part of a word outside the mask and the part inside make up the word. -/
theorem and_not_or_and (v mask : Word) : (v &&& ~~~mask) ||| (v &&& mask) = v := by
  rw [← BitVec.and_or_distrib_left, BitVec.or_comm, BitVec.or_not_self, BitVec.and_allOnes]

/-- A value with no bit outside the mask, as the precondition asks (R122), is its own part inside. -/
theorem and_mask_of_and_not_eq_zero {v mask : Word} (h : v &&& ~~~mask = 0#16) : v &&& mask = v := by
  have hparts := and_not_or_and v mask
  rwa [h, BitVec.zero_or] at hparts

/-! ## The two parts of the result -/

theorem maskedWrite_and_not_mask (cur newv mask : Word) :
    maskedWrite cur newv mask &&& ~~~mask = (cur &&& ~~~mask) ||| (newv &&& ~~~mask) := by
  rw [maskedWrite, BitVec.and_or_distrib_right, BitVec.and_assoc, BitVec.and_self]

theorem maskedWrite_and_mask (cur newv mask : Word) : maskedWrite cur newv mask &&& mask = newv &&& mask := by
  rw [maskedWrite, BitVec.and_or_distrib_right, BitVec.and_assoc, BitVec.not_and_self]
  simp

/-- Every bit outside the mask is preserved under the precondition (R122). -/
theorem maskedWrite_preserves_outside (cur : Word) {newv mask : Word} (h : newv &&& ~~~mask = 0#16) :
    maskedWrite cur newv mask &&& ~~~mask = cur &&& ~~~mask := by
  rw [maskedWrite_and_not_mask, h, BitVec.or_zero]

/-- The field takes the new value under the precondition (R122). -/
theorem maskedWrite_sets_field (cur : Word) {newv mask : Word} (h : newv &&& ~~~mask = 0#16) :
    maskedWrite cur newv mask &&& mask = newv := by
  rw [maskedWrite_and_mask, and_mask_of_and_not_eq_zero h]

/-! ## The corner cases of R122 -/

theorem maskedWrite_zero_zero (cur : Word) : maskedWrite cur 0#16 0#16 = cur := by
  rw [maskedWrite, BitVec.or_zero, BitVec.not_zero, BitVec.and_allOnes]

theorem maskedWrite_whole_word (cur newv : Word) : maskedWrite cur newv 0xFFFF = newv := by
  have hmask : ~~~(0xFFFF : Word) = 0#16 := by decide
  rw [maskedWrite, hmask, BitVec.and_zero, BitVec.zero_or]

theorem maskedWrite_same_field (cur mask : Word) : maskedWrite cur (cur &&& mask) mask = cur :=
  and_not_or_and cur mask

/-! ## The obligation -/

/-- Settles O12: the answer is `maskedWrite`, whose two parts and corner cases the lemmas above give. -/
theorem maskedWriteReplacesMaskedBits : Obligations.MaskedWriteReplacesMaskedBits := by
  unfold Obligations.MaskedWriteReplacesMaskedBits
  intro cur newv mask s
  refine ⟨maskedWrite cur newv mask, rfl, rfl,
    fun hpre => ⟨maskedWrite_preserves_outside cur hpre, maskedWrite_sets_field cur hpre⟩, ?_, ?_, ?_, ?_⟩
  · rintro rfl rfl
    exact maskedWrite_zero_zero cur
  · rintro rfl
    exact maskedWrite_whole_word cur newv
  · rintro rfl
    exact maskedWrite_same_field cur mask
  · rintro rfl rfl rfl
    decide

end Sys2Proof.Proofs
end

section
/-!
PROOFS. The temperature-format reads (R133 to R135): DECODE is the signed code over 16, and an operation that reads one register
and answers a value of it has four ways to return.
-/

namespace Sys2Proof.Proofs

open Sys2Proof.Machine Sys2Proof.Spec

/-! ## DECODE is the signed code over 16 -/

theorem msb_eq_msb_code (r : Word) : r.msb = (r.extractLsb' 4 12).msb := by
  simp [BitVec.msb_eq_getLsbD_last]

/-- The complement plus one of a negative code is the code's magnitude (R112). -/
theorem inv12_toNat_of_msb {c : Code} (h : c.msb = true) : ((inv12 c).toNat : ℤ) = -c.toInt := by
  have hbig : 2 * c.toNat ≥ 2 ^ 12 := BitVec.msb_eq_true_iff_two_mul_ge.mp h
  have hlt := c.isLt
  rw [inv12_eq, BitVec.toInt_eq_msb_cond, if_pos h, BitVec.toNat_neg]
  omega

theorem decodeCelsius_eq_toInt (r : Word) : decodeCelsius r = ((r.extractLsb' 4 12).toInt : ℚ) / 16 := by
  unfold decodeCelsius
  rw [msb_eq_msb_code]
  generalize r.extractLsb' 4 12 = c
  cases h : c.msb with
  | true =>
    have hmag : ((inv12 c).toNat : ℚ) = -(c.toInt : ℚ) := by exact_mod_cast inv12_toNat_of_msb h
    simp [hmag, neg_div]
  | false => simp [BitVec.toInt_eq_toNat_of_msb h]

/-! ## How a read ends, in the words of the statements -/

theorem finish_eq_onlyResponse (c : ResultCode) (d : Option Data) (s : State) :
    finish c d s = .next (onlyResponse c d s) := rfl

theorem afterRead_respond (a : RegAddr) (ans : ReadAnswer) (c : ResultCode) (d : Option Data) (s : State) :
    (afterRead a ans s).respond c d = readEnds a ans c d s := by
  simp [afterRead, State.record, State.respond, readEnds, readEvent]

theorem busFailure_afterRead (a : RegAddr) (s : State) :
    busFailure (afterRead a .error s) = .next (demoted (readEnds a .error .busError none s)) := by
  rw [← afterRead_respond]
  rfl

/-! ## One read, then an answer -/

section

variable {a : RegAddr} {s : State} (f : Word → Data)

theorem readAndAnswer_of_error (hready : s.handle.init = true) (hread : readAnswer a s = some .error) :
    prologue .handle (readReg a fun v => answer (f v)) s =
      .next (demoted (readEnds a .error .busError none s)) := by
  rw [prologue_ready _ hready, readReg_of_error _ hread, busFailure_afterRead]

theorem readAndAnswer_of_ok {b0 b1 : Byte} (hready : s.handle.init = true)
    (hread : readAnswer a s = some (.ok b0 b1)) :
    prologue .handle (readReg a fun v => answer (f v)) s =
      .next (readEnds a (.ok b0 b1) .ok (some (f (joinBytes b0 b1))) s) := by
  rw [prologue_ready _ hready, readReg_of_ok _ hread, ← afterRead_respond]
  rfl

end

/-! ## The obligation -/

theorem exec_of_temperatureRead {i : Instr} {a : RegAddr} {h : HandleRef} (hi : temperatureRead i = some (a, h))
    (s : State) : exec i s = readCelsius a h s := by
  cases i <;> cases hi <;> rfl

/-- Settles O26: the operation is the read of its register behind the prologue, and DECODE is the signed code over 16. -/
theorem temperatureReadsAnswerDecodedValue : Obligations.TemperatureReadsAnswerDecodedValue := by
  unfold Obligations.TemperatureReadsAnswerDecodedValue
  intro i a h s hi
  rw [exec_of_temperatureRead hi, readCelsius]
  refine ⟨?_, ?_, ?_, ?_⟩
  · rintro rfl
    rw [prologue_null, finish_eq_onlyResponse]
  · rintro rfl huninit
    rw [prologue_uninitialized _ huninit, finish_eq_onlyResponse]
  · rintro rfl hready hread
    exact readAndAnswer_of_error _ hready hread
  · rintro b0 b1 rfl hready hread
    rw [readAndAnswer_of_ok _ hready hread, decodeCelsius_eq_toInt]
    rfl

end Sys2Proof.Proofs
end

section
/-!
PROOFS. The field reads (R151 to R155): a field value is the number its bits of the register spell, each bit of the register is a
bit of one of the two bytes on the wire, and the operation is one read, then an answer.
-/

namespace Sys2Proof.Proofs

open Sys2Proof.Machine Sys2Proof.Spec

/-! ## A field value, bit by bit -/

/-- Masking and shifting down cuts out the field's bits: R92 on the table of R28. -/
theorem extractField_toNat (f : Field) (v : Word) :
    (extractField f v).toNat = v.toNat / 2 ^ fieldShift f % 2 ^ fieldWidth f := by
  have hmask : (fieldMask f).toNat = (2 ^ fieldWidth f - 1) <<< fieldShift f := by cases f <;> rfl
  rw [extractField, BitVec.toNat_ushiftRight, BitVec.toNat_and, hmask, Nat.shiftRight_and_distrib,
    Nat.shiftLeft_shiftRight, Nat.and_two_pow_sub_one_eq_mod, Nat.shiftRight_eq_div_pow]

theorem getLsbD_toNat (v : Word) (n : Nat) : (v.getLsbD n).toNat = v.toNat / 2 ^ n % 2 := by
  rw [← BitVec.testBit_toNat, Nat.toNat_testBit]

theorem extractField_toNat_of_one_bit {f : Field} (hwidth : fieldWidth f = 1) (v : Word) :
    (extractField f v).toNat = (v.getLsbD (fieldShift f)).toNat := by
  rw [extractField_toNat, hwidth, getLsbD_toNat, pow_one]

theorem extractField_toNat_of_two_bits {f : Field} (hwidth : fieldWidth f = 2) (v : Word) :
    (extractField f v).toNat =
      2 * (v.getLsbD (fieldShift f + 1)).toNat + (v.getLsbD (fieldShift f)).toNat := by
  rw [extractField_toNat, hwidth, getLsbD_toNat, getLsbD_toNat, pow_succ 2 (fieldShift f), ← Nat.div_div_eq_div_mul]
  omega

/-! ## The bits of a register value on the wire (R54) -/

theorem joinBytes_getLsbD_first (b0 b1 : Byte) (n : Nat) : (joinBytes b0 b1).getLsbD (n + 8) = b0.getLsbD n := by
  have hbit := BitVec.getLsbD_append (x := b0) (y := b1) (i := n + 8)
  rwa [if_neg (by omega), Nat.add_sub_cancel] at hbit

theorem joinBytes_getLsbD_second (b0 b1 : Byte) {n : Nat} (h : n < 8) :
    (joinBytes b0 b1).getLsbD n = b1.getLsbD n := by
  have hbit := BitVec.getLsbD_append (x := b0) (y := b1) (i := n)
  rwa [if_pos h] at hbit

/-! ## The five fields of a register value just read -/

theorem extractField_cr_joinBytes (b0 b1 : Byte) :
    (extractField .cr (joinBytes b0 b1)).toNat = 2 * (b0.getLsbD 6).toNat + (b0.getLsbD 5).toNat := by
  rw [← joinBytes_getLsbD_first b0 b1 6, ← joinBytes_getLsbD_first b0 b1 5]
  exact extractField_toNat_of_two_bits rfl _

theorem extractField_fm_joinBytes (b0 b1 : Byte) :
    (extractField .fm (joinBytes b0 b1)).toNat = 2 * (b0.getLsbD 1).toNat + (b0.getLsbD 0).toNat := by
  rw [← joinBytes_getLsbD_first b0 b1 1, ← joinBytes_getLsbD_first b0 b1 0]
  exact extractField_toNat_of_two_bits rfl _

theorem extractField_tm_joinBytes (b0 b1 : Byte) :
    (extractField .tm (joinBytes b0 b1)).toNat = (b0.getLsbD 2).toNat := by
  rw [← joinBytes_getLsbD_first b0 b1 2]
  exact extractField_toNat_of_one_bit rfl _

theorem extractField_hyst_joinBytes (b0 b1 : Byte) :
    (extractField .hyst (joinBytes b0 b1)).toNat = 2 * (b1.getLsbD 5).toNat + (b1.getLsbD 4).toNat := by
  rw [← joinBytes_getLsbD_second b0 b1 (by decide : 5 < 8), ← joinBytes_getLsbD_second b0 b1 (by decide : 4 < 8)]
  exact extractField_toNat_of_two_bits rfl _

theorem extractField_pol_joinBytes (b0 b1 : Byte) :
    (extractField .pol (joinBytes b0 b1)).toNat = (b1.getLsbD 7).toNat := by
  rw [← joinBytes_getLsbD_second b0 b1 (by decide : 7 < 8)]
  exact extractField_toNat_of_one_bit rfl _

/-! ## The obligation -/

/-- A field read is GET_FIELD of its field (R150), with a map under which the two bytes read have the meaning that
`fieldRead` gives them. -/
theorem exec_of_fieldRead {i : Instr} {h : HandleRef} {meaning : Byte → Byte → Data}
    (hi : fieldRead i = some (h, meaning)) :
    ∃ f map, (∀ s, exec i s = getField f map h s) ∧
      ∀ b0 b1, map (extractField f (joinBytes b0 b1)) = meaning b0 b1 := by
  cases i <;> cases hi
  case getCr =>
    refine ⟨.cr, fun v => .convRate (mapConvRate v), fun s => rfl, fun b0 b1 => ?_⟩
    simp only [mapConvRate, extractField_cr_joinBytes]
    cases b0.getLsbD 6 <;> cases b0.getLsbD 5 <;> rfl
  case getHyst =>
    refine ⟨.hyst, fun v => .hysteresis (mapHysteresis v), fun s => rfl, fun b0 b1 => ?_⟩
    simp only [mapHysteresis, extractField_hyst_joinBytes]
    cases b1.getLsbD 5 <;> cases b1.getLsbD 4 <;> rfl
  case getFm =>
    refine ⟨.fm, fun v => .funcMode (mapFuncMode v), fun s => rfl, fun b0 b1 => ?_⟩
    simp only [mapFuncMode, extractField_fm_joinBytes]
    cases b0.getLsbD 1 <;> cases b0.getLsbD 0 <;> rfl
  case getTm =>
    refine ⟨.tm, fun v => .thermMode (mapThermMode v), fun s => rfl, fun b0 b1 => ?_⟩
    simp only [mapThermMode, extractField_tm_joinBytes]
    cases b0.getLsbD 2 <;> rfl
  case getPol =>
    refine ⟨.pol, fun v => .polarity (mapPolarity v), fun s => rfl, fun b0 b1 => ?_⟩
    simp only [mapPolarity, extractField_pol_joinBytes]
    cases b1.getLsbD 7 <;> rfl

/-- Settles O31: the operation is the read of the Configuration register behind the prologue, and the field's bits in the two
bytes read name the member. -/
theorem fieldReadsAnswerMember : Obligations.FieldReadsAnswerMember := by
  unfold Obligations.FieldReadsAnswerMember
  intro i h meaning s hi
  obtain ⟨f, map, hexec, hmap⟩ := exec_of_fieldRead hi
  rw [hexec, getField]
  refine ⟨?_, ?_, ?_, ?_⟩
  · rintro rfl
    rw [prologue_null, finish_eq_onlyResponse]
  · rintro rfl huninit
    rw [prologue_uninitialized _ huninit, finish_eq_onlyResponse]
  · rintro rfl hready hread
    exact readAndAnswer_of_error _ hready hread
  · rintro b0 b1 rfl hready hread
    rw [readAndAnswer_of_ok (fun v => map (extractField f v)) hready hread, hmap]

end Sys2Proof.Proofs
end

section
/-!
PROOFS. The checks that end an operation before its first transaction (R172, R173, R176): an operation with selector 0x05 to 0x13
is something behind the prologue, a composite is a write behind its range check, and from an Uninitialized handle nothing but INIT
goes beyond the response.
-/

namespace Sys2Proof.Proofs

open Sys2Proof.Machine Sys2Proof.Spec Sys2Proof.Safety

/-! ## Operations behind the prologue -/

theorem exec_of_gatedHandle {i : Instr} {h : HandleRef} (hi : gatedHandle i = some h) :
    ∃ k : State → Out, ∀ s, exec i s = prologue h k s := by
  cases i <;> cases hi <;> exact ⟨_, fun _ => rfl⟩

section

variable {i : Instr} {s : State}

theorem exec_of_gated_null (hi : gatedHandle i = some .null) :
    exec i s = .next (onlyResponse .invalidParameter none s) := by
  obtain ⟨k, hexec⟩ := exec_of_gatedHandle hi
  rw [hexec, prologue_null, finish_eq_onlyResponse]

theorem exec_of_gated_uninitialized (hi : gatedHandle i = some .handle) (huninit : s.handle.init = false) :
    exec i s = .next (onlyResponse .notInitialized none s) := by
  obtain ⟨k, hexec⟩ := exec_of_gatedHandle hi
  rw [hexec, prologue_uninitialized k huninit, finish_eq_onlyResponse]

/-- A transaction is issued only after both checks of the prologue have passed (R176). -/
theorem checks_passed_of_history_ne {h : HandleRef} {t : State} (hi : gatedHandle i = some h)
    (ht : exec i s = .next t) (hne : t.history ≠ s.history) : h = .handle ∧ s.handle.init = true := by
  obtain ⟨k, hexec⟩ := exec_of_gatedHandle hi
  rw [hexec] at ht
  rcases prologue_cases h k s with ⟨_, e⟩ | ⟨_, _, e⟩ | ⟨hpassed, hready, _⟩
  · rw [e] at ht
    cases ht
    exact absurd rfl hne
  · rw [e] at ht
    cases ht
    exact absurd rfl hne
  · exact ⟨hpassed, hready⟩

end

/-! ## Operations behind the range check -/

theorem rangeChecked_of_inRange {x : ℚ} (k : State → Out) (s : State) (hx : inRange x) :
    rangeChecked x k s = k s :=
  rangeChecked_of_ok k s ((rangeCheck_ok_iff x).mpr hx)

theorem rangeChecked_of_not_inRange {x : ℚ} (k : State → Out) (s : State) (hx : ¬ inRange x) :
    rangeChecked x k s = finish .valueOutOfRange none s := by
  rcases rangeChecked_cases x k s with ⟨hok, _⟩ | ⟨_, e⟩
  · exact absurd ((rangeCheck_ok_iff x).mp hok) hx
  · exact e

theorem exec_of_composite {i : Instr} {a : RegAddr} {h : HandleRef} {x : ℚ} (hi : composite i = some (a, h, x))
    (s : State) : exec i s = rangeChecked x (writeCelsius a h x) s := by
  cases i <;> cases hi <;> rfl

section

variable {i : Instr} {a : RegAddr} {h : HandleRef} {x : ℚ} {s : State}

theorem exec_of_composite_inRange (hi : composite i = some (a, h, x)) (hx : inRange x) :
    exec i s = writeCelsius a h x s := by
  rw [exec_of_composite hi, rangeChecked_of_inRange _ s hx]

/-- Out of range, the range check ends the operation, whatever the handle (R177). -/
theorem exec_of_composite_not_inRange (hi : composite i = some (a, h, x)) (hx : ¬ inRange x) :
    exec i s = .next (onlyResponse .valueOutOfRange none s) := by
  rw [exec_of_composite hi, rangeChecked_of_not_inRange _ s hx, finish_eq_onlyResponse]

theorem exec_of_composite_null (hi : composite i = some (a, .null, x)) (hx : inRange x) :
    exec i s = .next (onlyResponse .invalidParameter none s) := by
  rw [exec_of_composite_inRange hi hx, writeCelsius, prologue_null, finish_eq_onlyResponse]

theorem exec_of_composite_uninitialized (hi : composite i = some (a, .handle, x)) (hx : inRange x)
    (huninit : s.handle.init = false) : exec i s = .next (onlyResponse .notInitialized none s) := by
  rw [exec_of_composite_inRange hi hx, writeCelsius, prologue_uninitialized _ huninit, finish_eq_onlyResponse]

end

/-! ## INIT without a handle or a bus -/

theorem exec_init_null (bus : Option BusRef) (d : DevIdx) (a : DevAddr) (s : State) :
    exec (.init .null bus d a) s = .next (onlyResponse .invalidParameter none s) := rfl

theorem exec_init_without_bus (h : HandleRef) (d : DevIdx) (a : DevAddr) (s : State) :
    exec (.init h none d a) s = .next (onlyResponse .invalidParameter none s) := by
  cases h <;> rfl

/-! ## The pure operations -/

theorem rangeCheck_ne_invalidParameter (x : ℚ) : rangeCheck x ≠ .invalidParameter := by
  unfold rangeCheck
  split <;> decide

/-- A pure operation has no handle to miss: it answers, and not with InvalidParameter (R96, R172). -/
theorem exec_of_isPure {i : Instr} (hi : isPure i = true) :
    ∃ c d, c ≠ .invalidParameter ∧ ∀ s, exec i s = .next (onlyResponse c d s) := by
  cases i <;> cases hi
  case encode x => exact ⟨.ok, _, by decide, fun _ => rfl⟩
  case decode r => exact ⟨.ok, _, by decide, fun _ => rfl⟩
  case maskedWrite cur newv mask => exact ⟨.ok, _, by decide, fun _ => rfl⟩
  case rangeCheck x => exact ⟨rangeCheck x, none, rangeCheck_ne_invalidParameter x, fun _ => rfl⟩

/-! ## An Uninitialized handle -/

/-- Of the five endings, a successful INIT is excluded by name, and the three with a transaction need a Ready handle. -/
theorem endsAtOnce_of_uninitialized {i : Instr} {s t : State} (hi : isInit i = false)
    (huninit : s.handle.init = false) (ht : exec i s = .next t) : EndsAtOnce s t := by
  have hnotReady : s.handle.init ≠ true := by simp [huninit]
  rcases exec_next ht with hend | ⟨_, _, _, rfl, _⟩ | ⟨hready, _⟩ | ⟨hready, _⟩ | ⟨hready, _⟩
  · exact hend
  · cases hi
  · exact absurd hready hnotReady
  · exact absurd hready hnotReady
  · exact absurd hready hnotReady

theorem handle_of_endsAtOnce {s t : State} (h : EndsAtOnce s t) : t.handle = s.handle := by
  obtain ⟨c, d, _, _, rfl⟩ := h
  exact State.respond_handle s c d

/-! ## The obligations -/

/-- Settles O33: the prologue, INIT and, behind the range check, the composites test for the handle first, and a pure operation
tests for none. -/
theorem nullHandleAnswersInvalidParameter : Obligations.NullHandleAnswersInvalidParameter := by
  unfold Obligations.NullHandleAnswersInvalidParameter
  refine ⟨fun i s hi => exec_of_gated_null hi, ?_,
    fun i a x s hi => ⟨exec_of_composite_null hi, exec_of_composite_not_inRange hi⟩, ?_⟩
  · rintro h bus d a s (rfl | rfl)
    · exact exec_init_null bus d a s
    · exact exec_init_without_bus h d a s
  · intro i s hi
    obtain ⟨c, d, hc, hexec⟩ := exec_of_isPure hi
    exact ⟨c, d, hexec s, hc⟩

/-- Settles O34: the prologue answers NotInitialized, also to a composite in range, and what ends at once leaves the handle. -/
theorem uninitializedHandleFailsFast : Obligations.UninitializedHandleFailsFast := by
  unfold Obligations.UninitializedHandleFailsFast
  exact ⟨fun i s hi huninit => exec_of_gated_uninitialized hi huninit,
    fun i a x s hi hx huninit => exec_of_composite_uninitialized hi hx huninit,
    fun i s t hi huninit ht => handle_of_endsAtOnce (endsAtOnce_of_uninitialized hi huninit ht)⟩

/-- Settles O35: each check of the prologue ends the operation at once, so a transaction means that both have passed. -/
theorem prologueChecksInOrder : Obligations.PrologueChecksInOrder := by
  unfold Obligations.PrologueChecksInOrder
  intro i h s hi
  refine ⟨?_, ?_, fun t ht hne => checks_passed_of_history_ne hi ht hne⟩
  · rintro rfl
    exact exec_of_gated_null hi
  · rintro rfl huninit
    exact exec_of_gated_uninitialized hi huninit

end Sys2Proof.Proofs
end

section
/-!
PROOFS. Decode and encode (R94, R95). Encoding is a section of decoding; decoding reads no port that its operation does not use;
and every well-formed request is, with its unused ports at zero, the request of some operation. Both directions of the agreement
follow from these three, and from the refusal of every request that fails a check.
-/

namespace Sys2Proof.Proofs

open Sys2Proof.Machine Sys2Proof.Spec

/-! ## What a port carries -/

theorem exists_isNull_eq (b : Bool) : ∃ h : HandleRef, h.isNull = b := by
  cases b with
  | false => exact ⟨.handle, rfl⟩
  | true => exact ⟨.null, rfl⟩

theorem exists_value_of_hasValue {x : CelsiusPort} (h : x.hasValue = true) : ∃ v, x = .value v := by
  cases x with
  | value v => exact ⟨v, rfl⟩
  | nan => cases h
  | posInf => cases h
  | negInf => cases h

/-! A setting of the port `e` that the operation's check admits is the code of a member (R83, R99). -/

theorem exists_convRate_code (e : BitVec 2) : ∃ m : ConvRate, BitVec.ofNat 2 m.code = e := by
  match e with
  | 0 => exact ⟨.hz0_25, rfl⟩
  | 1 => exact ⟨.hz1, rfl⟩
  | 2 => exact ⟨.hz4, rfl⟩
  | 3 => exact ⟨.hz16, rfl⟩

theorem exists_hysteresis_code (e : BitVec 2) : ∃ m : Hysteresis, BitVec.ofNat 2 m.code = e := by
  match e with
  | 0 => exact ⟨.c0, rfl⟩
  | 1 => exact ⟨.c1, rfl⟩
  | 2 => exact ⟨.c2, rfl⟩
  | 3 => exact ⟨.c4, rfl⟩

theorem exists_funcMode_code {e : BitVec 2} (h : decide (e.toNat < 3) = true) :
    ∃ m : FuncMode, BitVec.ofNat 2 m.code = e := by
  match e with
  | 0 => exact ⟨.shutdown, rfl⟩
  | 1 => exact ⟨.oneShot, rfl⟩
  | 2 => exact ⟨.continuous, rfl⟩
  | 3 => cases h

theorem exists_thermMode_code {e : BitVec 2} (h : decide (e.toNat < 2) = true) :
    ∃ m : ThermMode, BitVec.ofNat 2 m.code = e := by
  match e with
  | 0 => exact ⟨.comparator, rfl⟩
  | 1 => exact ⟨.interrupt, rfl⟩
  | 2 => cases h
  | 3 => cases h

theorem exists_polarity_code {e : BitVec 2} (h : decide (e.toNat < 2) = true) :
    ∃ m : Polarity, BitVec.ofNat 2 m.code = e := by
  match e with
  | 0 => exact ⟨.activeLow, rfl⟩
  | 1 => exact ⟨.activeHigh, rfl⟩
  | 2 => cases h
  | 3 => cases h

/-! ## Every operation is read back from its request -/

theorem decode_encode (i : Instr) : decode (encode i) = .ok i := by
  cases i with
  | encode x => rfl
  | decode r => rfl
  | maskedWrite cur newv mask => rfl
  | rangeCheck x => rfl
  | init h bus d a => cases h <;> rfl
  | getTemp h => cases h <;> rfl
  | getThigh h => cases h <;> rfl
  | getTlow h => cases h <;> rfl
  | setThigh h x => cases h <;> rfl
  | setTlow h x => cases h <;> rfl
  | getCr h => cases h <;> rfl
  | getHyst h => cases h <;> rfl
  | getFm h => cases h <;> rfl
  | getTm h => cases h <;> rfl
  | getPol h => cases h <;> rfl
  | setCr h e => cases h <;> cases e <;> rfl
  | setHyst h e => cases h <;> cases e <;> rfl
  | setFm h e => cases h <;> cases e <;> rfl
  | setTm h e => cases h <;> cases e <;> rfl
  | setPol h e => cases h <;> cases e <;> rfl
  | setcThigh h x => cases h <;> rfl
  | setcTlow h x => cases h <;> rfl

/-! ## Unused ports -/

/-- Each of the 32 selectors takes one arm of the decoder, and the arm reads only ports that `canonical` keeps. -/
theorem decode_canonical (q : Request) : decode q.canonical = decode q := by
  obtain ⟨⟨n, hn⟩, hnull, x, r, cur, newv, mask, e, bus, d, a⟩ := q
  interval_cases n <;> rfl

/-! ## A well-formed request names an operation -/

theorem exists_canonical_eq_encode {q : Request} (hwf : q.wellFormed = true) : ∃ i, q.canonical = encode i := by
  obtain ⟨⟨hselector, hmember⟩, hcelsius⟩ :
      (q.selectorNamed = true ∧ q.memberNamed = true) ∧ q.celsiusDefined = true := by
    simpa [Request.wellFormed] using hwf
  obtain ⟨⟨n, hn⟩, hnull, x, r, cur, newv, mask, e, bus, d, a⟩ := q
  obtain ⟨h, rfl⟩ := exists_isNull_eq hnull
  have hle : n ≤ 0x15 := of_decide_eq_true hselector
  interval_cases n
  · obtain ⟨v, rfl⟩ := exists_value_of_hasValue hcelsius
    exact ⟨.encode v, rfl⟩
  · exact ⟨.decode r, rfl⟩
  · exact ⟨.maskedWrite cur newv mask, rfl⟩
  · obtain ⟨v, rfl⟩ := exists_value_of_hasValue hcelsius
    exact ⟨.rangeCheck v, rfl⟩
  · exact ⟨.init h bus d a, rfl⟩
  · exact ⟨.getTemp h, rfl⟩
  · exact ⟨.getThigh h, rfl⟩
  · exact ⟨.getTlow h, rfl⟩
  · obtain ⟨v, rfl⟩ := exists_value_of_hasValue hcelsius
    exact ⟨.setThigh h v, rfl⟩
  · obtain ⟨v, rfl⟩ := exists_value_of_hasValue hcelsius
    exact ⟨.setTlow h v, rfl⟩
  · exact ⟨.getCr h, rfl⟩
  · exact ⟨.getHyst h, rfl⟩
  · exact ⟨.getFm h, rfl⟩
  · exact ⟨.getTm h, rfl⟩
  · exact ⟨.getPol h, rfl⟩
  · obtain ⟨m, rfl⟩ := exists_convRate_code e
    exact ⟨.setCr h m, rfl⟩
  · obtain ⟨m, rfl⟩ := exists_hysteresis_code e
    exact ⟨.setHyst h m, rfl⟩
  · obtain ⟨m, rfl⟩ := exists_funcMode_code hmember
    exact ⟨.setFm h m, rfl⟩
  · obtain ⟨m, rfl⟩ := exists_thermMode_code hmember
    exact ⟨.setTm h m, rfl⟩
  · obtain ⟨m, rfl⟩ := exists_polarity_code hmember
    exact ⟨.setPol h m, rfl⟩
  · obtain ⟨v, rfl⟩ := exists_value_of_hasValue hcelsius
    exact ⟨.setcThigh h v, rfl⟩
  · obtain ⟨v, rfl⟩ := exists_value_of_hasValue hcelsius
    exact ⟨.setcTlow h v, rfl⟩

/-! ## A request that fails a check is refused -/

/-- The codes that name no member of the operation's enumeration (R99). -/
def MemberMissing (q : Request) : Prop :=
  q.op = 0x11 ∧ q.e = 3 ∨ (q.op = 0x12 ∨ q.op = 0x13) ∧ 2 ≤ q.e.toNat

theorem decode_of_unknown_selector {q : Request} (h : 0x15 < q.op.toNat) :
    decode q = .error (.unknownSelector q.op) := by
  obtain ⟨⟨n, hn⟩, hnull, x, r, cur, newv, mask, e, bus, d, a⟩ := q
  have hlt : 0x15 < n := h
  interval_cases n <;> rfl

theorem withMember_of_none {α : Type} {q : Request} {ofCode? : Nat → Option α} (k : α → Instr)
    (h : ofCode? q.e.toNat = none) : q.withMember ofCode? k = .error (.noSuchMember q.op q.e) := by
  simp [Request.withMember, h]

theorem thermMode_ofCode?_of_two_le {n : Nat} (h : 2 ≤ n) : ThermMode.ofCode? n = none := by
  match n, h with
  | _ + 2, _ => rfl

theorem polarity_ofCode?_of_two_le {n : Nat} (h : 2 ≤ n) : Polarity.ofCode? n = none := by
  match n, h with
  | _ + 2, _ => rfl

theorem decode_of_memberMissing {q : Request} (h : MemberMissing q) :
    decode q = .error (.noSuchMember q.op q.e) := by
  obtain ⟨op, hnull, x, r, cur, newv, mask, e, bus, d, a⟩ := q
  rcases h with ⟨rfl, rfl⟩ | ⟨rfl | rfl, he⟩
  · rfl
  · exact withMember_of_none _ (thermMode_ofCode?_of_two_le he)
  · exact withMember_of_none _ (polarity_ofCode?_of_two_le he)

theorem withCelsius_of_no_value {q : Request} (k : ℚ → Instr) (h : q.x.hasValue = false) :
    q.withCelsius k = .error (.celsiusHasNoValue q.op) := by
  unfold Request.withCelsius
  split
  next hx => simp [hx, CelsiusPort.hasValue] at h
  all_goals rfl

theorem decode_of_no_value {q : Request} (huses : Request.usesCelsius q.op = true) (h : q.x.hasValue = false) :
    decode q = .error (.celsiusHasNoValue q.op) := by
  obtain ⟨op, hnull, x, r, cur, newv, mask, e, bus, d, a⟩ := q
  have hop : ((((op = 0x00 ∨ op = 0x03) ∨ op = 0x08) ∨ op = 0x09) ∨ op = 0x14) ∨ op = 0x15 := by
    simpa [Request.usesCelsius] using huses
  rcases hop with ((((rfl | rfl) | rfl) | rfl) | rfl) | rfl <;> exact withCelsius_of_no_value _ h

/-! ## Exactly the well-formed requests decode -/

theorem memberMissing_of_not_memberNamed {q : Request} (h : q.memberNamed = false) : MemberMissing q := by
  unfold Request.memberNamed at h
  split at h
  next hop =>
    have hlt := q.e.isLt
    have hge : ¬ q.e.toNat < 3 := of_decide_eq_false h
    exact .inl ⟨BitVec.eq_of_toNat_eq hop, BitVec.eq_of_toNat_eq (show q.e.toNat = 3 by omega)⟩
  next hop => exact .inr ⟨.inl (BitVec.eq_of_toNat_eq hop), Nat.le_of_not_lt (of_decide_eq_false h)⟩
  next hop => exact .inr ⟨.inr (BitVec.eq_of_toNat_eq hop), Nat.le_of_not_lt (of_decide_eq_false h)⟩
  next => cases h

theorem usesCelsius_of_not_celsiusDefined {q : Request} (h : q.celsiusDefined = false) :
    Request.usesCelsius q.op = true ∧ q.x.hasValue = false := by
  obtain ⟨⟨n, hn⟩, hnull, x, r, cur, newv, mask, e, bus, d, a⟩ := q
  unfold Request.celsiusDefined at h
  split at h
  case h_7 => cases h
  all_goals
    next hop =>
      obtain rfl : n = _ := hop
      exact ⟨rfl, h⟩

theorem exists_error_of_not_wellFormed {q : Request} (h : q.wellFormed = false) :
    ∃ why, decode q = .error why := by
  have hcheck : (q.selectorNamed = false ∨ q.memberNamed = false) ∨ q.celsiusDefined = false := by
    rwa [Request.wellFormed, Bool.and_eq_false_iff, Bool.and_eq_false_iff] at h
  rcases hcheck with (hselector | hmember) | hcelsius
  · exact ⟨_, decode_of_unknown_selector (Nat.lt_of_not_le (of_decide_eq_false hselector))⟩
  · exact ⟨_, decode_of_memberMissing (memberMissing_of_not_memberNamed hmember)⟩
  · obtain ⟨huses, hvalue⟩ := usesCelsius_of_not_celsiusDefined hcelsius
    exact ⟨_, decode_of_no_value huses hvalue⟩

theorem wellFormed_of_decode {q : Request} {i : Instr} (h : decode q = .ok i) : q.wellFormed = true := by
  cases hwf : q.wellFormed with
  | true => rfl
  | false =>
    obtain ⟨why, hwhy⟩ := exists_error_of_not_wellFormed hwf
    rw [hwhy] at h
    cases h

theorem decode_of_canonical_eq {q : Request} {i : Instr} (h : q.canonical = encode i) : decode q = .ok i := by
  rw [← decode_canonical, h, decode_encode]

theorem decode_eq_ok_iff (q : Request) (i : Instr) :
    decode q = .ok i ↔ q.wellFormed = true ∧ q.canonical = encode i := by
  refine ⟨fun h => ?_, fun ⟨_, hcanonical⟩ => decode_of_canonical_eq hcanonical⟩
  have hwf := wellFormed_of_decode h
  obtain ⟨j, hj⟩ := exists_canonical_eq_encode hwf
  obtain rfl : j = i := Except.ok.inj ((decode_of_canonical_eq hj).symm.trans h)
  exact ⟨hwf, hj⟩

theorem decodes_iff_wellFormed (q : Request) : (∃ i, decode q = .ok i) ↔ q.wellFormed = true := by
  refine ⟨fun ⟨i, h⟩ => wellFormed_of_decode h, fun hwf => ?_⟩
  obtain ⟨i, hi⟩ := exists_canonical_eq_encode hwf
  exact ⟨i, decode_of_canonical_eq hi⟩

/-! ## The obligations -/

/-- Settles O6: encoding is a section of decoding, and a request that decodes is well formed and canonically its operation's. -/
theorem decodeAndEncodeAgree : Obligations.DecodeAndEncodeAgree := by
  unfold Obligations.DecodeAndEncodeAgree
  exact ⟨decode_encode, decode_eq_ok_iff⟩

/-- Settles O7: the decoder reads no port that `canonical` sets to zero. -/
theorem unusedPortsAreIgnored : Obligations.UnusedPortsAreIgnored := by
  unfold Obligations.UnusedPortsAreIgnored
  exact fun q => (decode_canonical q).symm

/-- Settles O8: a well-formed request is some operation's, and each failed check has its own refusal. -/
theorem undefinedRequestsAreRejectedByName : Obligations.UndefinedRequestsAreRejectedByName := by
  unfold Obligations.UndefinedRequestsAreRejectedByName
  exact fun q => ⟨decodes_iff_wellFormed q, decode_of_unknown_selector, decode_of_memberMissing, decode_of_no_value⟩

/-- Settles O5: each selector takes its own arm of the decoder, whatever the other ports carry. -/
theorem selectorsDecodeAsTabulated : Obligations.SelectorsDecodeAsTabulated := by
  unfold Obligations.SelectorsDecodeAsTabulated
  intro q x
  have hpassed : passed q = HandleRef.ofNull q.hnull := by
    unfold passed
    cases q.hnull <;> rfl
  rw [hpassed]
  and_intros <;> rfl

end Sys2Proof.Proofs
end

section
/-!
PROOFS. What an operation can do, whichever way it ends (R170, R178, R189, R215). The parts of an operation each behave within a
row of transactions and a list of result codes: they end with one of the codes, use up replies of the environment's scripts and
overwrite only registers that the row writes, or they are stuck in a call that a script says never returns. The behaviour of an
operation comes from that of its parts.
-/

namespace Sys2Proof.Proofs

open Sys2Proof.Machine Sys2Proof.Spec

/-! ## Behaviour within a row and a list of codes -/

/-- From `s` to `t` the environment's replies are used in order, and only the registers that `row` writes are overwritten. -/
structure Advances (row : List (Bool × RegAddr)) (s t : State) : Prop where
  requests : t.requests = s.requests
  device : t.device = s.device
  reads : t.reads <:+ s.reads
  writes : t.writes <:+ s.writes
  registers : ∀ a, (true, a) ∉ row → t.dev.get a = s.dev.get a

/-- An outcome from `s`: an end with a code of `cs` after an advance within `row`, or a stop in a call that never returns. -/
def Behaves (row : List (Bool × RegAddr)) (cs : List ResultCode) (s : State) : Out → Prop
  | .next t => Advances row s t ∧ ∃ r, t.response = some r ∧ r.status ∈ cs
  | .fault _ => .never ∈ s.reads ∨ .never ∈ s.writes
  | .refused _ => False

section

variable {row : List (Bool × RegAddr)} {cs : List ResultCode} {s s' t : State}

theorem Advances.trans (h : Advances row s s') (h' : Advances row s' t) : Advances row s t where
  requests := h'.requests.trans h.requests
  device := h'.device.trans h.device
  reads := h'.reads.trans h.reads
  writes := h'.writes.trans h.writes
  registers a ha := (h'.registers a ha).trans (h.registers a ha)

/-- What behaves from a state reached by an advance behaves from where the advance began. -/
theorem Advances.behaves {out : Out} (h : Advances row s s') (hout : Behaves row cs s' out) :
    Behaves row cs s out := by
  match out, hout with
  | .next t, ⟨hadvance, hcode⟩ => exact ⟨h.trans hadvance, hcode⟩
  | .fault f, hnever => exact hnever.imp (fun hr => h.reads.subset hr) (fun hw => h.writes.subset hw)

/-! ### The parts of an operation -/

theorem finish_behaves {c : ResultCode} (d : Option Data) (hc : c ∈ cs) : Behaves row cs s (finish c d s) :=
  ⟨⟨rfl, rfl, List.suffix_refl _, List.suffix_refl _, fun _ _ => rfl⟩, _, rfl, hc⟩

theorem busFailure_behaves (hc : .busError ∈ cs) : Behaves row cs s (busFailure s) :=
  ⟨⟨rfl, rfl, List.suffix_refl _, List.suffix_refl _, fun _ _ => rfl⟩, _, rfl, hc⟩

theorem afterRead_advances (a : RegAddr) (ans : ReadAnswer) : Advances row s (afterRead a ans s) where
  requests := by simp
  device := by simp
  reads := by simpa using List.tail_suffix s.reads
  writes := by simp
  registers := by simp

theorem afterWrite_advances {a : RegAddr} (ha : (true, a) ∈ row) (v : Word) (ans : WriteAnswer) :
    Advances row s (afterWrite a v ans s) where
  requests := by simp
  device := by simp
  reads := by simp
  writes := by simpa using List.tail_suffix s.writes
  registers b hb := by
    have hne : b ≠ a := by
      rintro rfl
      exact hb ha
    rw [afterWrite_dev, DevRegs.get_set_other _ _ hne]

/-- A read is stuck only on a scripted reply: a free answer returns (log 7). -/
theorem never_mem_reads_of_readAnswer {a : RegAddr} (h : readAnswer a s = none) : .never ∈ s.reads := by
  unfold readAnswer readReply at h
  cases hreads : s.reads with
  | nil => simp [hreads] at h
  | cons r rest => cases r <;> simp_all

/-- A write is stuck only on a scripted reply (log 7). -/
theorem never_mem_writes_of_writeAnswer {a : RegAddr} {v : Word} (h : writeAnswer a v s = none) :
    .never ∈ s.writes := by
  unfold writeAnswer writeReply at h
  cases hwrites : s.writes with
  | nil => cases hfree : Config.freeWrite s.handle.bus s.handle.addr a v s.draws <;> simp [hwrites, hfree] at h
  | cons r rest => cases r <;> simp_all

theorem readReg_behaves {a : RegAddr} {k : Word → State → Out} (hc : .busError ∈ cs)
    (hk : ∀ v s', Behaves row cs s' (k v s')) : Behaves row cs s (readReg a k s) := by
  rcases readReg_cases a k s with ⟨hnever, e⟩ | ⟨_, e⟩ | ⟨b0, b1, _, e⟩ <;> rw [e]
  · exact .inl (never_mem_reads_of_readAnswer hnever)
  · exact (afterRead_advances a .error).behaves (busFailure_behaves hc)
  · exact (afterRead_advances a (.ok b0 b1)).behaves (hk _ _)

theorem writeReg_done_behaves {a : RegAddr} {v : Word} (ha : (true, a) ∈ row) (hok : .ok ∈ cs)
    (hc : .busError ∈ cs) : Behaves row cs s (writeReg a v done s) := by
  rcases writeReg_cases a v done s with ⟨hnever, e⟩ | ⟨_, e⟩ | ⟨_, e⟩ <;> rw [e]
  · exact .inr (never_mem_writes_of_writeAnswer hnever)
  · exact (afterWrite_advances ha v .error).behaves (busFailure_behaves hc)
  · exact (afterWrite_advances ha v .ok).behaves (finish_behaves none hok)

theorem prologue_behaves {h : HandleRef} {k : State → Out} (hnull : .invalidParameter ∈ cs)
    (huninit : .notInitialized ∈ cs) (hk : Behaves row cs s (k s)) : Behaves row cs s (prologue h k s) := by
  rcases prologue_cases h k s with ⟨_, e⟩ | ⟨_, _, e⟩ | ⟨_, _, e⟩ <;> rw [e]
  · exact finish_behaves none hnull
  · exact finish_behaves none huninit
  · exact hk

theorem rangeChecked_behaves {x : ℚ} {k : State → Out} (hc : .valueOutOfRange ∈ cs)
    (hk : Behaves row cs s (k s)) : Behaves row cs s (rangeChecked x k s) := by
  rcases rangeChecked_cases x k s with ⟨_, e⟩ | ⟨_, e⟩ <;> rw [e]
  · exact hk
  · exact finish_behaves none hc

end

/-! ### The common forms of the operations -/

section

variable {cs : List ResultCode} {s : State}

/-- The four codes of a driver operation that has no range check (R189). -/
abbrev driverCodes : List ResultCode := [.ok, .invalidParameter, .notInitialized, .busError]

theorem getter_behaves (a : RegAddr) (f : Word → Data) (h : HandleRef) :
    Behaves [(false, a)] driverCodes s (prologue h (readReg a fun v => answer (f v)) s) :=
  prologue_behaves (by decide) (by decide)
    (readReg_behaves (by decide) fun _ _ => finish_behaves _ (by decide))

theorem writeCelsius_behaves (hcs : driverCodes ⊆ cs) (a : RegAddr) (h : HandleRef) (x : ℚ) :
    Behaves [(true, a)] cs s (writeCelsius a h x s) :=
  prologue_behaves (hcs (by decide)) (hcs (by decide))
    (writeReg_done_behaves (by simp) (hcs (by decide)) (hcs (by decide)))

theorem setField_behaves (f : Field) (code : Nat) (h : HandleRef) :
    Behaves [(false, .configuration), (true, .configuration)] driverCodes s (setField f code h s) :=
  prologue_behaves (by decide) (by decide)
    (readReg_behaves (by decide) fun _ _ => writeReg_done_behaves (by decide) (by decide) (by decide))

theorem checkedWrite_behaves (a : RegAddr) (h : HandleRef) (x : ℚ) :
    Behaves [(true, a)] (driverCodes ++ [.valueOutOfRange]) s (rangeChecked x (writeCelsius a h x) s) :=
  rangeChecked_behaves (by decide) (writeCelsius_behaves (List.subset_append_left _ _) a h x)

theorem execRangeCheck_behaves (x : ℚ) : Behaves [] [.ok, .valueOutOfRange] s (execRangeCheck x s) := by
  unfold execRangeCheck rangeCheck
  split <;> exact finish_behaves none (by decide)

theorem execInit_behaves (h : HandleRef) (bus : Option BusRef) (d : DevIdx) (a : DevAddr) :
    Behaves [] [.ok, .invalidParameter] s (execInit h bus d a s) := by
  cases h with
  | null => exact finish_behaves none (by decide)
  | handle =>
    cases bus with
    | none => exact finish_behaves none (by decide)
    | some b =>
      exact ⟨⟨rfl, rfl, List.suffix_refl _, List.suffix_refl _, fun _ _ => rfl⟩, _, rfl, List.mem_cons_self⟩

/-- Every operation behaves within its row of R60 and its row of R189. -/
theorem exec_behaves (i : Instr) (s : State) : Behaves (transactions i) (codes i) s (exec i s) := by
  cases i with
  | encode x => exact finish_behaves _ List.mem_cons_self
  | decode r => exact finish_behaves _ List.mem_cons_self
  | maskedWrite cur newv mask => exact finish_behaves _ List.mem_cons_self
  | rangeCheck x => exact execRangeCheck_behaves x
  | init h bus d a => exact execInit_behaves h bus d a
  | getTemp h => exact getter_behaves .temperature (fun v => .celsius (decodeCelsius v)) h
  | getThigh h => exact getter_behaves .tHigh (fun v => .celsius (decodeCelsius v)) h
  | getTlow h => exact getter_behaves .tLow (fun v => .celsius (decodeCelsius v)) h
  | setThigh h x => exact writeCelsius_behaves (List.Subset.refl _) .tHigh h x
  | setTlow h x => exact writeCelsius_behaves (List.Subset.refl _) .tLow h x
  | getCr h => exact getter_behaves .configuration (fun v => .convRate (mapConvRate (extractField .cr v))) h
  | getHyst h =>
    exact getter_behaves .configuration (fun v => .hysteresis (mapHysteresis (extractField .hyst v))) h
  | getFm h => exact getter_behaves .configuration (fun v => .funcMode (mapFuncMode (extractField .fm v))) h
  | getTm h => exact getter_behaves .configuration (fun v => .thermMode (mapThermMode (extractField .tm v))) h
  | getPol h => exact getter_behaves .configuration (fun v => .polarity (mapPolarity (extractField .pol v))) h
  | setCr h e => exact setField_behaves .cr e.code h
  | setHyst h e => exact setField_behaves .hyst e.code h
  | setFm h e => exact setField_behaves .fm e.code h
  | setTm h e => exact setField_behaves .tm e.code h
  | setPol h e => exact setField_behaves .pol e.code h
  | setcThigh h x => exact checkedWrite_behaves .tHigh h x
  | setcTlow h x => exact checkedWrite_behaves .tLow h x

end

theorem behaves_of_next {i : Instr} {s t : State} (ht : exec i s = .next t) :
    Advances (transactions i) s t ∧ ∃ r, t.response = some r ∧ r.status ∈ codes i := by
  have hbehaves := exec_behaves i s
  rwa [ht] at hbehaves

/-! ## The obligations about one operation -/

/-- Settles O39: the codes are a clause of the operation's behaviour. -/
theorem resultCodesPerOperation : Obligations.ResultCodesPerOperation := by
  unfold Obligations.ResultCodesPerOperation
  exact fun i s t ht => (behaves_of_next ht).2

/-- Settles O40: the outcomes of a behaviour are an end and a stop in a call that never returns. -/
theorem onlyUnreturnedCallStops : Obligations.OnlyUnreturnedCallStops := by
  unfold Obligations.OnlyUnreturnedCallStops
  intro i s
  have hbehaves := exec_behaves i s
  refine ⟨fun r hr => ?_, fun f hf => ?_⟩
  · rwa [hr] at hbehaves
  · rwa [hf] at hbehaves

end Sys2Proof.Proofs
end

section
/-!
PROOFS. What the handle becomes (R24, R174, R178, R186), and what an operation does not read. Of the endings of an operation, a
failed transaction demotes the handle, a successful INIT fills it, and every other one leaves it; an Uninitialized handle keeps
every operation but INIT to its response.
-/

namespace Sys2Proof.Proofs

open Sys2Proof.Machine Sys2Proof.Spec Sys2Proof.Safety

/-! ## The handle after an operation -/

/-- The error path (R178): the flag is cleared and the answer is BusError. -/
def BusFailed (s t : State) : Prop :=
  t.handle = { s.handle with init := false } ∧ t.response = some { status := .busError, data := none }

/-- The transactions succeeded: the handle is left and the answer is Ok. -/
def Answered (s t : State) : Prop :=
  t.handle = s.handle ∧ ∃ d, t.response = some { status := .ok, data := d }

section

variable {i : Instr} {s t : State}

theorem handle_of_endsInRead (h : EndsInRead s t) : BusFailed s t ∨ Answered s t := by
  rcases h with ⟨a, _, rfl⟩ | ⟨a, b0, b1, d, _, rfl⟩
  · exact .inl ⟨by simp, rfl⟩
  · exact .inr ⟨by simp, _, rfl⟩

theorem handle_of_endsInWrite {a : RegAddr} {v : Word} (h : EndsInWrite a v s t) :
    BusFailed s t ∨ Answered s t := by
  rcases h with ⟨_, rfl⟩ | ⟨_, rfl⟩
  · exact .inl ⟨by simp, rfl⟩
  · exact .inr ⟨by simp, _, rfl⟩

/-- The endings of an operation, by what becomes of the handle. -/
theorem handle_cases (ht : exec i s = .next t) :
    EndsAtOnce s t ∨
    (∃ b d a, i = .init .handle (some b) d a ∧ t = (s.initialise b a).respond .ok none) ∨
    (s.handle.init = true ∧ BusFailed s t) ∨ (s.handle.init = true ∧ Answered s t) := by
  rcases exec_next ht with h | h | ⟨hready, h⟩ | ⟨hready, a, x, _, h⟩ | ⟨hready, b0, b1, out, _, h⟩
  · exact .inl h
  · exact .inr (.inl h)
  · exact .inr (.inr ((handle_of_endsInRead h).imp (.intro hready) (.intro hready)))
  · exact .inr (.inr ((handle_of_endsInWrite h).imp (.intro hready) (.intro hready)))
  · have hhandle : (afterRead .configuration (.ok b0 b1) s).handle = s.handle := afterRead_handle _ _ s
    have hend := handle_of_endsInWrite h
    rw [BusFailed, Answered, hhandle] at hend
    exact .inr (.inr (hend.imp (.intro hready) (.intro hready)))

end

/-- Settles O36: a failed transaction clears the flag, what ends at once changes only the response, and an Ok leaves the handle
unless the operation is INIT. -/
theorem onlyBusErrorDemotes : Obligations.OnlyBusErrorDemotes := by
  unfold Obligations.OnlyBusErrorDemotes
  intro i s t ht
  rcases handle_cases ht with ⟨c, d, hd, hbus, rfl⟩ | ⟨b, d, a, rfl, rfl⟩ | ⟨hready, hhandle, hresp⟩ |
    ⟨hready, hhandle, d, hresp⟩
  · refine ⟨⟨c, d⟩, rfl, fun h => absurd h hbus, fun _ hok => ?_, fun _ _ => rfl⟩
    obtain rfl : d = none := hd.resolve_right hok
    rfl
  · exact ⟨⟨.ok, none⟩, rfl, nofun, fun _ hok => absurd rfl hok, nofun⟩
  · exact ⟨⟨.busError, none⟩, hresp, fun _ => ⟨hhandle, hready⟩, fun hbus => absurd rfl hbus, nofun⟩
  · exact ⟨⟨.ok, d⟩, hresp, nofun, fun _ hok => absurd rfl hok, fun _ _ => hhandle⟩

/-- Settles O38: only INIT makes the handle Ready, and only a failed transaction makes it Uninitialized. -/
theorem handleStateMachine : Obligations.HandleStateMachine := by
  unfold Obligations.HandleStateMachine
  intro i s t ht
  rcases handle_cases ht with hend | ⟨b, d, a, rfl, rfl⟩ | ⟨hready, hhandle, hresp⟩ | ⟨hready, hhandle, _⟩
  · rw [handle_of_endsAtOnce hend]
    exact ⟨fun hfalse htrue => by simp [hfalse] at htrue, fun htrue hfalse => by simp [hfalse] at htrue⟩
  · exact ⟨fun _ _ => ⟨b, d, a, rfl, rfl⟩, fun _ hfalse => nomatch hfalse⟩
  · exact ⟨fun hfalse => by simp [hready] at hfalse, fun _ _ => hresp⟩
  · exact ⟨fun hfalse => by simp [hready] at hfalse, fun _ hfalse => by simp [hhandle, hready] at hfalse⟩

/-! ## An Uninitialized handle -/

/-- The operation is an INIT that succeeds: one with a handle and a bus (R132). -/
def Initialises (i : Instr) : Prop :=
  ∃ b d a, i = .init .handle (some b) d a

/-- On an Uninitialized handle, `f` answers the same response whatever else the state holds, and changes nothing but the
response. -/
def AnswersUninitialized (f : State → Out) : Prop :=
  ∃ c d, ∀ s, s.handle.init = false → f s = .next (onlyResponse c d s)

theorem prologue_answersUninitialized (h : HandleRef) (k : State → Out) : AnswersUninitialized (prologue h k) := by
  cases h with
  | null => exact ⟨_, _, fun s _ => prologue_null k s⟩
  | handle => exact ⟨_, _, fun s huninit => prologue_uninitialized k huninit⟩

theorem exec_answersUninitialized {i : Instr} (hi : ¬ Initialises i) : AnswersUninitialized (exec i) := by
  rcases exec_shape i with ⟨c, d, _, _, e⟩ | ⟨h, bus, d, a, rfl⟩ | ⟨h, a, f, e⟩ | ⟨h, a, x, _, e⟩ |
    ⟨h, a, x, _, e⟩ | ⟨h, f, code, e⟩
  · exact ⟨c, d, fun s _ => e s⟩
  · refine ⟨.invalidParameter, none, fun s _ => ?_⟩
    cases h with
    | null => exact exec_init_null bus d a s
    | handle =>
      cases bus with
      | none => exact exec_init_without_bus .handle d a s
      | some b => exact absurd ⟨b, d, a, rfl⟩ hi
  · rw [funext e]
    exact prologue_answersUninitialized h _
  · rw [funext e]
    exact prologue_answersUninitialized h _
  · rw [funext e]
    by_cases hx : inRange x
    · have hpassed : rangeChecked x (writeCelsius a h x) = writeCelsius a h x :=
        funext fun s => rangeChecked_of_inRange _ s hx
      rw [hpassed]
      exact prologue_answersUninitialized h _
    · exact ⟨_, _, fun s _ => rangeChecked_of_not_inRange _ s hx⟩
  · rw [funext e]
    exact prologue_answersUninitialized h _

/-- Operations without a successful INIT among them, run on an Uninitialized handle, leave everything but the response. -/
theorem runAll_of_uninitialized {js : List Instr} (hjs : ∀ j ∈ js, ¬ Initialises j) {s : State}
    (huninit : s.handle.init = false) : ∃ resp, runAll js s = .next { s with response := resp } := by
  induction js generalizing s with
  | nil => exact ⟨s.response, rfl⟩
  | cons j js ih =>
    obtain ⟨c, d, hj⟩ := exec_answersUninitialized (hjs j List.mem_cons_self)
    obtain ⟨resp, hrun⟩ := ih (fun k hk => hjs k (List.mem_cons_of_mem j hk)) (s := onlyResponse c d s) huninit
    refine ⟨resp, ?_⟩
    rw [runAll, hj s huninit]
    exact hrun

theorem exec_of_needsReady {i : Instr} {s : State} (hi : needsReady i) (huninit : s.handle.init = false) :
    exec i s = .next (onlyResponse .notInitialized none s) := by
  rcases hi with hi | ⟨a, x, hi, hx⟩
  · exact exec_of_gated_uninitialized hi huninit
  · exact exec_of_composite_uninitialized hi hx huninit

/-- Settles O37: BusError leaves the handle Uninitialized, and from there no operation but a successful INIT goes beyond the
response. -/
theorem busErrorLastsUntilInit : Obligations.BusErrorLastsUntilInit := by
  unfold Obligations.BusErrorLastsUntilInit
  intro i s t ht hresp js hjs
  have huninit : t.handle.init = false := by
    obtain ⟨r, hr, hdemotes, _⟩ := onlyBusErrorDemotes i s t ht
    obtain rfl : _ = r := Option.some.inj (hresp.symm.trans hr)
    obtain ⟨hhandle, _⟩ := hdemotes rfl
    rw [hhandle]
  have hnoInit : ∀ j ∈ js, ¬ Initialises j := by
    rintro j hj ⟨b, d, a, rfl⟩
    exact hjs b d a hj
  obtain ⟨resp, hrun⟩ := runAll_of_uninitialized hnoInit huninit
  exact ⟨_, hrun, ⟨resp, rfl⟩, fun j hj => exec_of_needsReady hj huninit, fun b d a => ⟨_, rfl, rfl⟩⟩

/-- Settles O46: on an Uninitialized handle the answer depends on the operation alone. -/
theorem uninitializedFieldsAreNotRead : Obligations.UninitializedFieldsAreNotRead := by
  unfold Obligations.UninitializedFieldsAreNotRead
  intro i s t b a hi huninit ht
  have hnoInit : ¬ Initialises i := by
    rintro ⟨b, d, a, rfl⟩
    cases hi
  obtain ⟨c, d, hexec⟩ := exec_answersUninitialized hnoInit
  obtain rfl : onlyResponse c d s = t := Host.Outcome.next.inj ((hexec s huninit).symm.trans ht)
  rw [hexec _ rfl]
  rfl

/-- Settles O44: the frame of an operation's behaviour, and of the handle's fields only INIT writes the first two. -/
theorem operationsLeaveTheRest : Obligations.OperationsLeaveTheRest := by
  unfold Obligations.OperationsLeaveTheRest
  intro i s t ht
  obtain ⟨hadvance, _⟩ := behaves_of_next ht
  refine ⟨hadvance.requests, hadvance.device, fun hi => ?_, hadvance.registers⟩
  rcases handle_cases ht with hend | ⟨b, d, a, rfl, _⟩ | ⟨_, hhandle, _⟩ | ⟨_, hhandle, _⟩
  · rw [handle_of_endsAtOnce hend]
    exact ⟨rfl, rfl⟩
  · cases hi
  · rw [hhandle]
    exact ⟨rfl, rfl⟩
  · rw [hhandle]
    exact ⟨rfl, rfl⟩

end Sys2Proof.Proofs
end

section
/-!
PROOFS. One step (R25, R187, R200): which act of the outside world it takes and what it then does. With an environment that
keeps to its part, every step completes (R205, R215).
-/

namespace Sys2Proof.Proofs

open Sys2Proof.Machine Sys2Proof.Spec Sys2Proof.Safety

/-! ## A step, by the next act of the outside world -/

section

variable {s : State} {rest : List Issue} {q q' : Request}

theorem step_of_none (h : s.requests = []) : step s = .next s := by
  simp only [step, accept_none h]

theorem step_of_reset (h : s.requests = .blockReset :: rest) :
    step s = .next (State.blockReset { s with requests := rest }) := by
  simp only [step, accept_reset h]

theorem step_of_overlapping (h : s.requests = .overlapping q q' :: rest) :
    step s = .refused .overlappingRequests := by
  simp only [step, accept_overlapping h]

theorem step_of_rejected {why : DecodeError} (h : s.requests = .one q :: rest) (hd : decode q = .error why) :
    step s = .refused (.rejectedRequest why) := by
  simp only [step, accept_rejected h hd]

theorem step_of_decoded {i : Instr} (h : s.requests = .one q :: rest) (hd : decode q = .ok i) :
    step s = exec i { s with requests := rest } := by
  simp only [step, accept_decoded h hd]

end

/-- Settles O1: the clauses are the fields of the reset state. -/
theorem resetLeavesHandleUninitialized : Obligations.ResetLeavesHandleUninitialized := by
  unfold Obligations.ResetLeavesHandleUninitialized
  exact ⟨Handle.unset_init 0, rfl, rfl, DevRegs.powerUp_get⟩

/-- Settles O2: a request that decodes leaves the queue and its operation runs. -/
theorem stepRunsDecodedRequest : Obligations.StepRunsDecodedRequest := by
  unfold Obligations.StepRunsDecodedRequest
  exact fun s q rest i h hd => step_of_decoded h hd

/-- Settles O3: with an empty queue there is nothing to accept. -/
theorem stepWaitsForRequest : Obligations.StepWaitsForRequest := by
  unfold Obligations.StepWaitsForRequest
  exact fun s h => step_of_none h

/-- Settles O4: the acceptance of a request refuses both kinds. -/
theorem stepRefusesUndefinedAndOverlapping : Obligations.StepRefusesUndefinedAndOverlapping := by
  unfold Obligations.StepRefusesUndefinedAndOverlapping
  exact ⟨fun s q rest why h hd => step_of_rejected h hd, fun s q q' rest h => step_of_overlapping h⟩

/-! ## Resets -/

/-- Settles O52: the step is the block reset, and the clauses are its fields. -/
theorem blockResetKeepsTheSensor : Obligations.BlockResetKeepsTheSensor := by
  unfold Obligations.BlockResetKeepsTheSensor
  intro s rest h
  exact ⟨_, step_of_reset h, Handle.unset_init _, rfl, rfl, rfl, rfl, rfl, rfl, rfl⟩

/-- Settles O54: a sensor reset writes the registers alone. -/
theorem sensorResetKeepsTheBlock : Obligations.SensorResetKeepsTheBlock := by
  unfold Obligations.SensorResetKeepsTheBlock
  exact fun s => ⟨rfl, rfl, rfl, DevRegs.powerUp_get⟩

/-! ## Progress under an environment that keeps to its part -/

section

variable {row : List (Bool × RegAddr)} {s t : State}

theorem never_notMem_reads (h : s.reads.all readReturns = true) : .never ∉ s.reads := fun hmem =>
  nomatch List.all_eq_true.mp h _ hmem

theorem never_notMem_writes (h : s.writes.all writeReturns = true) : .never ∉ s.writes := fun hmem =>
  nomatch List.all_eq_true.mp h _ hmem

theorem all_of_suffix {α : Type} {p : α → Bool} {l l' : List α} (h : l <:+ l') (hall : l'.all p = true) :
    l.all p = true :=
  List.all_eq_true.mpr fun x hx => List.all_eq_true.mp hall x (h.subset hx)

theorem environmentSafe_of_advances (hsafe : EnvironmentSafe s) (h : Advances row s t) : EnvironmentSafe t := by
  obtain ⟨hrequests, hreads, hwrites⟩ := hsafe
  exact ⟨h.requests ▸ hrequests, all_of_suffix h.reads hreads, all_of_suffix h.writes hwrites⟩

theorem environmentSafe_rest {act : Issue} {rest : List Issue} (hsafe : EnvironmentSafe s)
    (h : s.requests = act :: rest) : issueDefined act = true ∧ EnvironmentSafe { s with requests := rest } := by
  obtain ⟨hrequests, hreads, hwrites⟩ := hsafe
  rw [h, List.all_cons, Bool.and_eq_true] at hrequests
  obtain ⟨hact, hrest⟩ := hrequests
  exact ⟨hact, hrest, hreads, hwrites⟩

/-- Of the outcomes of a behaviour, the environment's part excludes the stop in an unreturned call. -/
theorem exec_completes_of_safe (i : Instr) (hsafe : EnvironmentSafe s) :
    ∃ t, exec i s = .next t ∧ EnvironmentSafe t ∧ ∃ r, t.response = some r ∧ r.status ∈ codes i := by
  have hbehaves := exec_behaves i s
  match hout : exec i s with
  | .next t =>
    rw [hout] at hbehaves
    obtain ⟨hadvance, hcode⟩ := hbehaves
    exact ⟨t, rfl, environmentSafe_of_advances hsafe hadvance, hcode⟩
  | .fault f =>
    rw [hout] at hbehaves
    obtain ⟨_, hreads, hwrites⟩ := hsafe
    exact (hbehaves.elim (never_notMem_reads hreads) (never_notMem_writes hwrites)).elim
  | .refused r =>
    rw [hout] at hbehaves
    exact hbehaves.elim

end

/-- Settles O51: a safe environment offers nothing, a reset, or a request that decodes, whose operation then completes. -/
theorem safeStepAlwaysCompletes : Obligations.SafeStepAlwaysCompletes := by
  unfold Obligations.SafeStepAlwaysCompletes
  intro s hsafe
  match hs : s.requests with
  | [] => exact ⟨s, step_of_none hs, hsafe, nofun⟩
  | .blockReset :: rest => exact ⟨_, step_of_reset hs, (environmentSafe_rest hsafe hs).2, nofun⟩
  | .overlapping q q' :: rest => cases (environmentSafe_rest hsafe hs).1
  | .one q :: rest =>
    obtain ⟨hwf, hrest⟩ := environmentSafe_rest hsafe hs
    obtain ⟨i, hi⟩ := (decodes_iff_wellFormed q).mpr hwf
    obtain ⟨t, ht, hsafe', r, hr, hcode⟩ := exec_completes_of_safe i hrest
    refine ⟨t, (step_of_decoded hs hi).trans ht, hsafe', ?_⟩
    rintro _ _ ⟨⟩
    exact ⟨i, r, hi, hr, hcode⟩

end Sys2Proof.Proofs
end

section
/-!
PROOFS. The invariant of the machine (R58, R61, R63, R95, R97). Each update of the state that an operation or a reset makes
keeps it, so every ending of an operation does.
-/

namespace Sys2Proof.Proofs

open Sys2Proof.Machine Sys2Proof.Spec Sys2Proof.Safety

/-! ## What may be written to a register -/

/-- A write that the block may issue: none to Temperature (R61), and to a threshold only with bits [3:0] zero (R27, R97). -/
def MayWrite (a : RegAddr) (v : Word) : Prop :=
  a ≠ .temperature ∧ ((a = .tLow ∨ a = .tHigh) → secondByte v &&& 0x0F = 0)

theorem mayWrite_configuration (v : Word) : MayWrite .configuration v :=
  ⟨by decide, by rintro (h | h) <;> cases h⟩

/-- The reserved bits that ENCODE writes as zero are the low bits of the second byte. -/
theorem secondByte_encodeCelsius_reserved (x : ℚ) : secondByte (encodeCelsius x) &&& 0x0F = 0 := by
  have hreserved := congrArg secondByte (encodeCelsius_and_reserved x)
  simp only [secondByte, BitVec.extractLsb'_and] at hreserved
  exact hreserved

theorem mayWrite_encodeCelsius {a : RegAddr} (ha : a = .tLow ∨ a = .tHigh) (x : ℚ) : MayWrite a (encodeCelsius x) :=
  ⟨by rcases ha with rfl | rfl <;> decide, fun _ => secondByte_encodeCelsius_reserved x⟩

theorem eventSound_writeEvent {a : RegAddr} {v : Word} (h : MayWrite a v) (ans : WriteAnswer) (s : State) :
    eventSound (writeEvent a v ans s) = true := by
  obtain ⟨htemperature, hthreshold⟩ := h
  cases a with
  | temperature => exact absurd rfl htemperature
  | configuration => rfl
  | tLow => exact beq_iff_eq.mpr (hthreshold (.inl rfl))
  | tHigh => exact beq_iff_eq.mpr (hthreshold (.inr rfl))

/-! ## The updates of the state keep the invariant -/

section

variable {s t : State}

theorem inv_respond (h : Inv s) {c : ResultCode} {d : Option Data} (hd : d = none ∨ c = .ok) :
    Inv (s.respond c d) where
  response := by rcases hd with rfl | rfl <;> simp [responseSound]
  events := h.events
  store := h.store

theorem inv_setInit (h : Inv s) (b : Bool) : Inv (s.setInit b) := ⟨h.response, h.events, h.store⟩

theorem inv_initialise (h : Inv s) (b : BusRef) (a : DevAddr) : Inv (s.initialise b a) :=
  ⟨h.response, h.events, h.store⟩

theorem inv_dropRequest (h : Inv s) (rest : List Issue) : Inv { s with requests := rest } :=
  ⟨h.response, h.events, h.store⟩

/-- An empty history follows from any registers. -/
theorem inv_of_empty (hhist : s.history = []) (hresp : s.response = none) : Inv s where
  response := by rw [hresp]; rfl
  events := by rw [hhist]; rfl
  store a v hlast := by rw [hhist] at hlast; cases hlast

theorem inv_afterRead (h : Inv s) (a : RegAddr) (ans : ReadAnswer) : Inv (afterRead a ans s) where
  response := by simpa using h.response
  events := by simpa [readEvent, eventSound] using h.events
  store b v hlast := by
    rw [afterRead_history, readEvent, lastWrite_append_rd] at hlast
    rw [afterRead_dev]
    exact h.store b v hlast

theorem inv_afterWrite (h : Inv s) {a : RegAddr} {v : Word} (hmay : MayWrite a v) {ans : WriteAnswer}
    (hans : writeAnswer a v s = some ans) : Inv (afterWrite a v ans s) where
  response := by simpa using h.response
  events := by
    rw [afterWrite_history, List.all_append, h.events, List.all_cons, eventSound_writeEvent hmay]
    rfl
  store b w hlast := by
    rw [afterWrite_history, writeEvent, lastWrite_append_wr, joinBytes_first_second] at hlast
    rw [afterWrite_dev]
    split at hlast
    next hb =>
      cases hlast
      rw [← hb, DevRegs.get_set_same, writtenValue_of_ok hans]
    next hb =>
      rw [DevRegs.get_set_other _ _ (Ne.symm hb)]
      exact h.store b w hlast

/-! ## The endings keep the invariant -/

theorem inv_endsInRead (h : Inv s) (hend : EndsInRead s t) : Inv t := by
  rcases hend with ⟨a, _, rfl⟩ | ⟨a, b0, b1, d, _, rfl⟩
  · exact inv_respond (inv_setInit (inv_afterRead h a .error) false) (.inl rfl)
  · exact inv_respond (inv_afterRead h a (.ok b0 b1)) (.inr rfl)

theorem inv_endsInWrite (h : Inv s) {a : RegAddr} {v : Word} (hmay : MayWrite a v) (hend : EndsInWrite a v s t) :
    Inv t := by
  rcases hend with ⟨hans, rfl⟩ | ⟨hans, rfl⟩
  · exact inv_respond (inv_setInit (inv_afterWrite h hmay hans) false) (.inl rfl)
  · exact inv_respond (inv_afterWrite h hmay hans) (.inl rfl)

theorem inv_exec (h : Inv s) {i : Instr} (ht : exec i s = .next t) : Inv t := by
  rcases exec_next ht with ⟨c, d, hd, _, rfl⟩ | ⟨b, d, a, _, rfl⟩ | ⟨_, hend⟩ | ⟨_, a, x, ha, hend⟩ |
    ⟨_, b0, b1, out, _, hend⟩
  · exact inv_respond h hd
  · exact inv_respond (inv_initialise h b a) (.inl rfl)
  · exact inv_endsInRead h hend
  · exact inv_endsInWrite h (mayWrite_encodeCelsius ha x) hend
  · exact inv_endsInWrite (inv_afterRead h .configuration (.ok b0 b1)) (mayWrite_configuration out) hend

end

/-- Settles O49: at reset no transaction has been issued and no response given. -/
theorem resetMeetsInvariant : Obligations.ResetMeetsInvariant := by
  unfold Obligations.ResetMeetsInvariant
  exact inv_of_empty rfl rfl

/-- Settles O50: waiting changes nothing, a reset of the block empties the history, and every ending of an operation keeps the
invariant. -/
theorem stepKeepsInvariant : Obligations.StepKeepsInvariant := by
  unfold Obligations.StepKeepsInvariant
  intro s t h ht
  rcases step_next ht with ⟨_, rfl⟩ | ⟨rest, _, rfl⟩ | ⟨q, rest, i, _, _, hexec⟩
  · exact h
  · exact inv_of_empty rfl rfl
  · exact inv_exec (inv_dropRequest h rest) hexec

end Sys2Proof.Proofs
end

section
/-!
PROOFS. The event history (R39, R60, R63): which transactions a step appends, and that no operation reads the history or the
response ports.
-/

namespace Sys2Proof.Proofs

open Sys2Proof.Machine Sys2Proof.Spec

/-! ## The transactions of a step -/

/-- A transaction on the bus and at the address of the handle, and if a write, then not of Temperature (R22, R23, R61). -/
def IssuedThrough (h : Handle) (e : Event) : Prop :=
  (∃ a ans, e = .rd h.bus h.addr a ans) ∨
  (∃ a b0 b1 ans, a ≠ .temperature ∧ e = .wr h.bus h.addr a b0 b1 ans)

section

variable {s t : State}

theorem issuedThrough_readEvent (a : RegAddr) (ans : ReadAnswer) : IssuedThrough s.handle (readEvent a ans s) :=
  .inl ⟨a, ans, rfl⟩

theorem issuedThrough_writeEvent {a : RegAddr} (ha : a ≠ .temperature) (v : Word) (ans : WriteAnswer) :
    IssuedThrough s.handle (writeEvent a v ans s) :=
  .inr ⟨a, _, _, ans, ha, rfl⟩

theorem history_of_endsInRead (h : EndsInRead s t) :
    ∃ e, t.history = s.history ++ [e] ∧ IssuedThrough s.handle e := by
  rcases h with ⟨a, _, rfl⟩ | ⟨a, b0, b1, d, _, rfl⟩
  · exact ⟨_, afterRead_history a .error s, issuedThrough_readEvent a .error⟩
  · exact ⟨_, afterRead_history a (.ok b0 b1) s, issuedThrough_readEvent a (.ok b0 b1)⟩

theorem history_of_endsInWrite {a : RegAddr} {v : Word} (ha : a ≠ .temperature) (h : EndsInWrite a v s t) :
    ∃ e, t.history = s.history ++ [e] ∧ IssuedThrough s.handle e := by
  rcases h with ⟨_, rfl⟩ | ⟨_, rfl⟩
  · exact ⟨_, afterWrite_history a v .error s, issuedThrough_writeEvent ha v .error⟩
  · exact ⟨_, afterWrite_history a v .ok s, issuedThrough_writeEvent ha v .ok⟩

/-- The endings of an operation append no transaction, one, or the two of a masked update. -/
theorem exec_appends {i : Instr} (ht : exec i s = .next t) :
    ∃ es : List Event, t.history = s.history ++ es ∧ es.length ≤ 2 ∧ ∀ e ∈ es, IssuedThrough s.handle e := by
  rcases exec_next ht with ⟨c, d, _, _, rfl⟩ | ⟨b, d, a, _, rfl⟩ | ⟨_, hend⟩ | ⟨_, a, x, ha, hend⟩ |
    ⟨_, b0, b1, out, _, hend⟩
  · exact ⟨[], by simp, by decide, nofun⟩
  · exact ⟨[], by simp, by decide, nofun⟩
  · obtain ⟨e, hhist, he⟩ := history_of_endsInRead hend
    exact ⟨[e], hhist, by simp, by simpa using he⟩
  · have hne : a ≠ .temperature := by rcases ha with rfl | rfl <;> decide
    obtain ⟨e, hhist, he⟩ := history_of_endsInWrite hne hend
    exact ⟨[e], hhist, by simp, by simpa using he⟩
  · obtain ⟨e, hhist, he⟩ := history_of_endsInWrite (by decide) hend
    rw [afterRead_history] at hhist
    rw [afterRead_handle] at he
    exact ⟨[readEvent .configuration (.ok b0 b1) s, e], by simp [hhist], by simp,
      by simpa using ⟨issuedThrough_readEvent _ _, he⟩⟩

end

/-- Settles O43: a step that waits appends nothing, and otherwise it is one operation, on the handle as it was held. -/
theorem stepAppendsTransactionsOfTheHandle : Obligations.StepAppendsTransactionsOfTheHandle := by
  unfold Obligations.StepAppendsTransactionsOfTheHandle
  intro s t hnoReset ht
  rcases step_next ht with ⟨_, rfl⟩ | ⟨rest, hreset, _⟩ | ⟨q, rest, i, _, _, hexec⟩
  · exact ⟨[], by simp, by decide, nofun⟩
  · exact absurd hreset (hnoReset rest)
  · exact exec_appends (s := { s with requests := rest }) hexec

/-! ## The history and the response are not read -/

/-- The state with another history and another response in their place. -/
def withTrace (s : State) (hist : List Event) (resp : Option Response) : State :=
  { s with history := hist, response := resp }

/-- `f` reads neither: from another history and response it reaches the same state, with the same transactions appended. -/
def IgnoresTrace (f : State → Out) : Prop :=
  ∀ (s t : State) (hist : List Event) (resp : Option Response), f s = .next t →
    ∃ es, t.history = s.history ++ es ∧ f (withTrace s hist resp) = .next { t with history := hist ++ es }

theorem finish_ignoresTrace (c : ResultCode) (d : Option Data) : IgnoresTrace (finish c d) := by
  rintro s _ hist resp ⟨⟩
  exact ⟨[], by simp, by simp [finish, State.respond, withTrace]⟩

theorem busFailure_ignoresTrace : IgnoresTrace busFailure := by
  rintro s _ hist resp ⟨⟩
  exact ⟨[], by simp, by simp [busFailure, finish, State.respond, State.setInit, withTrace]⟩

theorem afterRead_withTrace (a : RegAddr) (ans : ReadAnswer) (s : State) (hist : List Event)
    (resp : Option Response) :
    afterRead a ans (withTrace s hist resp) = withTrace (afterRead a ans s) (hist ++ [readEvent a ans s]) resp := by
  obtain ⟨handle, dev, device, history, requests, reads, writes, draws, response⟩ := s
  cases reads <;> rfl

theorem afterWrite_withTrace (a : RegAddr) (v : Word) (ans : WriteAnswer) (s : State) (hist : List Event)
    (resp : Option Response) :
    afterWrite a v ans (withTrace s hist resp) =
      withTrace (afterWrite a v ans s) (hist ++ [writeEvent a v ans s]) resp := by
  obtain ⟨handle, dev, device, history, requests, reads, writes, draws, response⟩ := s
  cases writes <;> rfl

/-- After one transaction `e`, what ignores the trace goes on from the trace with `e` appended. -/
theorem IgnoresTrace.after_event {f : State → Out} (hf : IgnoresTrace f) {s s' t : State} {e : Event}
    (hhist : s'.history = s.history ++ [e]) (ht : f s' = .next t) (hist : List Event) (resp : Option Response) :
    ∃ es, t.history = s.history ++ es ∧
      f (withTrace s' (hist ++ [e]) resp) = .next { t with history := hist ++ es } := by
  obtain ⟨es, hes, hout⟩ := hf s' t (hist ++ [e]) resp ht
  exact ⟨e :: es, by simp [hes, hhist], by simpa using hout⟩

theorem readReg_ignoresTrace (a : RegAddr) {k : Word → State → Out} (hk : ∀ v, IgnoresTrace (k v)) :
    IgnoresTrace (readReg a k) := by
  intro s t hist resp ht
  have hsame : readAnswer a (withTrace s hist resp) = readAnswer a s := rfl
  rcases readReg_cases a k s with ⟨_, e⟩ | ⟨hans, e⟩ | ⟨b0, b1, hans, e⟩ <;> rw [e] at ht
  · cases ht
  · rw [readReg_of_error k (hsame.trans hans), afterRead_withTrace]
    exact busFailure_ignoresTrace.after_event (afterRead_history a .error s) ht hist resp
  · rw [readReg_of_ok k (hsame.trans hans), afterRead_withTrace]
    exact (hk _).after_event (afterRead_history a (.ok b0 b1) s) ht hist resp

theorem writeReg_ignoresTrace (a : RegAddr) (v : Word) {k : State → Out} (hk : IgnoresTrace k) :
    IgnoresTrace (writeReg a v k) := by
  intro s t hist resp ht
  have hsame : writeAnswer a v (withTrace s hist resp) = writeAnswer a v s := rfl
  rcases writeReg_cases a v k s with ⟨_, e⟩ | ⟨hans, e⟩ | ⟨hans, e⟩ <;> rw [e] at ht
  · cases ht
  · rw [writeReg_of_error k (hsame.trans hans), afterWrite_withTrace]
    exact busFailure_ignoresTrace.after_event (afterWrite_history a v .error s) ht hist resp
  · rw [writeReg_of_ok k (hsame.trans hans), afterWrite_withTrace]
    exact hk.after_event (afterWrite_history a v .ok s) ht hist resp

theorem prologue_ignoresTrace (h : HandleRef) {k : State → Out} (hk : IgnoresTrace k) :
    IgnoresTrace (prologue h k) := by
  intro s t hist resp ht
  rcases prologue_cases h k s with ⟨rfl, e⟩ | ⟨rfl, huninit, e⟩ | ⟨rfl, hready, e⟩ <;> rw [e] at ht
  · exact finish_ignoresTrace _ _ s t hist resp ht
  · rw [prologue_uninitialized k (show (withTrace s hist resp).handle.init = false from huninit)]
    exact finish_ignoresTrace _ _ s t hist resp ht
  · rw [prologue_ready k (show (withTrace s hist resp).handle.init = true from hready)]
    exact hk s t hist resp ht

theorem writeCelsius_ignoresTrace (a : RegAddr) (h : HandleRef) (x : ℚ) : IgnoresTrace (writeCelsius a h x) :=
  prologue_ignoresTrace h (writeReg_ignoresTrace a _ (finish_ignoresTrace _ _))

theorem rangeChecked_ignoresTrace (x : ℚ) {k : State → Out} (hk : IgnoresTrace k) :
    IgnoresTrace (rangeChecked x k) := by
  intro s t hist resp ht
  rcases rangeChecked_cases x k s with ⟨hok, e⟩ | ⟨hout, e⟩ <;> rw [e] at ht
  · rw [rangeChecked_of_ok k _ hok]
    exact hk s t hist resp ht
  · rw [rangeChecked_of_out k _ hout]
    exact finish_ignoresTrace _ _ s t hist resp ht

theorem init_ignoresTrace (h : HandleRef) (bus : Option BusRef) (d : DevIdx) (a : DevAddr) :
    IgnoresTrace (exec (.init h bus d a)) := by
  intro s t hist resp ht
  cases h with
  | null => exact finish_ignoresTrace _ _ s t hist resp ht
  | handle =>
    cases bus with
    | none => exact finish_ignoresTrace _ _ s t hist resp ht
    | some b => exact finish_ignoresTrace _ _ (s.initialise b a) t hist resp ht

theorem exec_ignoresTrace (i : Instr) : IgnoresTrace (exec i) := by
  rcases exec_shape i with ⟨c, d, _, _, e⟩ | ⟨h, bus, d, a, rfl⟩ | ⟨h, a, f, e⟩ | ⟨h, a, x, _, e⟩ |
    ⟨h, a, x, _, e⟩ | ⟨h, f, code, e⟩
  · rw [funext e]
    exact finish_ignoresTrace c d
  · exact init_ignoresTrace h bus d a
  · rw [funext e]
    exact prologue_ignoresTrace h (readReg_ignoresTrace a fun _ => finish_ignoresTrace _ _)
  · rw [funext e]
    exact writeCelsius_ignoresTrace a h x
  · rw [funext e]
    exact rangeChecked_ignoresTrace x (writeCelsius_ignoresTrace a h x)
  · rw [funext e]
    exact prologue_ignoresTrace h
      (readReg_ignoresTrace _ fun _ => writeReg_ignoresTrace _ _ (finish_ignoresTrace _ _))

/-- Settles O45: no part of an operation reads the trace. -/
theorem historyAndResponseAreNotRead : Obligations.HistoryAndResponseAreNotRead := by
  unfold Obligations.HistoryAndResponseAreNotRead
  exact exec_ignoresTrace

end Sys2Proof.Proofs
end

section
/-!
PROOFS. The temperature codec (R82, R111 to R121). ENCODE puts `trunc(16 x)` modulo 4096 above four zero bits and DECODE reads
it back as a signed code, so the round trip is the identity on codes, and from Celsius it is truncation wherever
`trunc(16 x)` is a signed 12-bit number.
-/

namespace Sys2Proof.Proofs

open Sys2Proof.Machine Sys2Proof.Spec Sys2Proof.Safety

/-! ## The truncated number of steps -/

theorem truncSteps_of_neg {x : ℚ} (hx : x < 0) : truncSteps x = -⌊-(16 * x)⌋ := if_pos hx

theorem truncSteps_of_nonneg {x : ℚ} (hx : 0 ≤ x) : truncSteps x = ⌊16 * x⌋ := if_neg (not_lt.mpr hx)

theorem truncSteps_intCast_div (k : ℤ) : truncSteps (k / 16) = k := by
  have hk : 16 * ((k : ℚ) / 16) = k := by ring
  unfold truncSteps
  split
  · rw [hk, ← Int.cast_neg, Int.floor_intCast, neg_neg]
  · rw [hk, Int.floor_intCast]

/-- Truncation is towards zero: at or below a value that is not negative, by less than a step. -/
theorem truncSteps_bounds_of_nonneg {x : ℚ} (hx : 0 ≤ x) :
    0 ≤ (truncSteps x : ℚ) / 16 ∧ (truncSteps x : ℚ) / 16 ≤ x ∧ x < (truncSteps x : ℚ) / 16 + 1 / 16 := by
  have hle := Int.floor_le (16 * x)
  have hlt := Int.lt_floor_add_one (16 * x)
  have hpos : (0 : ℚ) ≤ (⌊16 * x⌋ : ℤ) := Int.cast_nonneg (Int.floor_nonneg.mpr (by linarith))
  rw [truncSteps_of_nonneg hx]
  refine ⟨?_, ?_, ?_⟩ <;> linarith

theorem truncSteps_neg {x : ℚ} (hx : x < 0) : truncSteps x = -truncSteps (-x) := by
  rw [truncSteps_of_neg hx, truncSteps_of_nonneg (by linarith), mul_neg]

/-- Truncation is towards zero: at or above a negative value, by less than a step. -/
theorem truncSteps_bounds_of_neg {x : ℚ} (hx : x < 0) :
    (truncSteps x : ℚ) / 16 ≤ 0 ∧ x ≤ (truncSteps x : ℚ) / 16 ∧ (truncSteps x : ℚ) / 16 - 1 / 16 < x := by
  obtain ⟨hpos, hle, hlt⟩ := truncSteps_bounds_of_nonneg (x := -x) (by linarith)
  have hcast : (truncSteps x : ℚ) = -(truncSteps (-x) : ℚ) := by exact_mod_cast truncSteps_neg hx
  rw [hcast]
  refine ⟨?_, ?_, ?_⟩ <;> linarith

theorem abs_sub_truncSteps_lt (x : ℚ) : |x - (truncSteps x : ℚ) / 16| < 1 / 16 := by
  rw [abs_lt]
  rcases lt_or_ge x 0 with hx | hx
  · obtain ⟨_, hle, hlt⟩ := truncSteps_bounds_of_neg hx
    constructor <;> linarith
  · obtain ⟨_, hle, hlt⟩ := truncSteps_bounds_of_nonneg hx
    constructor <;> linarith

theorem abs_truncSteps_le (x : ℚ) : |(truncSteps x : ℚ) / 16| ≤ |x| := by
  rcases lt_or_ge x 0 with hx | hx
  · obtain ⟨hneg, hle, _⟩ := truncSteps_bounds_of_neg hx
    rw [abs_of_nonpos hneg, abs_of_neg hx]
    linarith
  · obtain ⟨hpos, hle, _⟩ := truncSteps_bounds_of_nonneg hx
    rw [abs_of_nonneg hpos, abs_of_nonneg hx]
    exact hle

theorem truncSteps_le {x : ℚ} {k : ℤ} (hk : 0 ≤ k) (hx : x < (k + 1) / 16) : truncSteps x ≤ k := by
  have hk' : (0 : ℚ) ≤ k := Int.cast_nonneg hk
  have hlt : (truncSteps x : ℚ) < k + 1 := by
    rcases lt_or_ge x 0 with hneg | hpos
    · obtain ⟨hle, _, _⟩ := truncSteps_bounds_of_neg hneg
      linarith
    · obtain ⟨_, hle, _⟩ := truncSteps_bounds_of_nonneg hpos
      linarith
  exact Int.lt_add_one_iff.mp (by exact_mod_cast hlt)

theorem le_truncSteps {x : ℚ} {k : ℤ} (hk : k ≤ 0) (hx : (k - 1) / 16 < x) : k ≤ truncSteps x := by
  have hk' : (k : ℚ) ≤ 0 := Int.cast_nonpos.mpr hk
  have hlt : (k : ℚ) - 1 < truncSteps x := by
    rcases lt_or_ge x 0 with hneg | hpos
    · obtain ⟨_, hge, _⟩ := truncSteps_bounds_of_neg hneg
      linarith
    · obtain ⟨hge, _, _⟩ := truncSteps_bounds_of_nonneg hpos
      linarith
  exact Int.sub_one_lt_iff.mp (by exact_mod_cast hlt)

/-- Inside the checked range the truncated steps are the listed codes (R82). -/
theorem truncSteps_bounds_of_inRange {x : ℚ} (hx : inRange x) : -1200 ≤ truncSteps x ∧ truncSteps x ≤ 2047 := by
  obtain ⟨hlow, hhigh⟩ := hx
  exact ⟨le_truncSteps (by decide) (by norm_num; linarith), truncSteps_le (by decide) (by norm_num; linarith)⟩

/-! ## ENCODE -/

theorem stepCount_eq (x : ℚ) : (stepCount x : ℤ) = truncSteps |x| := by
  have habs : absolute x = |x| := by
    unfold absolute
    split
    next hx => exact (abs_of_neg hx).symm
    next hx => exact (abs_of_nonneg (not_lt.mp hx)).symm
  have hpos : 0 ≤ ⌊16 * |x|⌋ := Int.floor_nonneg.mpr (by positivity)
  rw [stepCount, habs, truncSteps_of_nonneg (abs_nonneg x), mul_comm]
  exact Int.toNat_of_nonneg hpos

theorem celsiusCode_eq_ofInt (x : ℚ) : celsiusCode x = BitVec.ofInt 12 (truncSteps x) := by
  unfold celsiusCode
  rw [neg12_eq, ← BitVec.ofInt_natCast, stepCount_eq]
  split
  next hx => rw [abs_of_neg hx, truncSteps_neg hx, BitVec.ofInt_neg]
  next hx => rw [abs_of_nonneg (not_lt.mp hx)]

/-- Four zero bits below a 12-bit code multiply it by 16. -/
theorem ofInt_append_zeros (k : ℤ) : BitVec.ofInt 12 k ++ 0#4 = BitVec.ofInt 16 (16 * k) := by
  apply BitVec.eq_of_toNat_eq
  rw [BitVec.toNat_append, BitVec.toNat_ofInt, BitVec.toNat_ofInt, Nat.shiftLeft_eq, BitVec.toNat_zero,
    Nat.or_zero]
  omega

theorem encodeCelsius_eq_ofInt (x : ℚ) : encodeCelsius x = BitVec.ofInt 16 (16 * truncSteps x) := by
  rw [encodeCelsius_eq_append, celsiusCode_eq_ofInt, ofInt_append_zeros]

/-! ## The round trips -/

/-- A register value with bits [3:0] cleared is its code above four zero bits. -/
theorem extractCode_append_zeros (r : Word) : r.extractLsb' 4 12 ++ 0#4 = r &&& 0xFFF0 := by
  have hparts : r.extractLsb' 4 12 ++ r.extractLsb' 0 4 = r := BitVec.extractLsb'_append_extractLsb'
  have hmask : (0xFFF0 : Word) = BitVec.allOnes 12 ++ 0#4 := by decide
  conv_rhs => rw [← hparts, hmask, BitVec.and_append, BitVec.and_allOnes, BitVec.and_zero]

/-- DECODE after ENCODE: the truncated steps, wrapped into the signed 12-bit codes. -/
theorem decodeCelsius_encodeCelsius (x : ℚ) :
    decodeCelsius (encodeCelsius x) = ((BitVec.ofInt 12 (truncSteps x)).toInt : ℚ) / 16 := by
  rw [decodeCelsius_eq_toInt, encodeCelsius_eq_append, BitVec.extractLsb'_append_eq_left,
    celsiusCode_eq_ofInt]

theorem decodeCelsius_encodeCelsius_of_code {x : ℚ} (hlow : -2048 ≤ truncSteps x) (hhigh : truncSteps x ≤ 2047) :
    decodeCelsius (encodeCelsius x) = (truncSteps x : ℚ) / 16 := by
  rw [decodeCelsius_encodeCelsius, BitVec.toInt_ofInt, Int.bmod_eq_of_le (by omega) (by omega)]

theorem decodeCelsius_bounds (r : Word) : -128 ≤ decodeCelsius r ∧ decodeCelsius r ≤ 2047 / 16 := by
  have hlow : (-2048 : ℤ) ≤ (r.extractLsb' 4 12).toInt := BitVec.le_toInt _
  have hhigh : (r.extractLsb' 4 12).toInt < 2048 := BitVec.toInt_lt
  have hlow' : (-2048 : ℚ) ≤ (r.extractLsb' 4 12).toInt := by exact_mod_cast hlow
  have hhigh' : ((r.extractLsb' 4 12).toInt : ℚ) ≤ 2047 := by exact_mod_cast Int.le_of_lt_add_one hhigh
  rw [decodeCelsius_eq_toInt]
  constructor <;> linarith

/-- ENCODE after DECODE: the code of the register value, back in its place (R119 b). -/
theorem encodeCelsius_decodeCelsius (r : Word) : encodeCelsius (decodeCelsius r) = r &&& 0xFFF0 := by
  rw [encodeCelsius_eq_append, celsiusCode_eq_ofInt, decodeCelsius_eq_toInt, truncSteps_intCast_div,
    BitVec.ofInt_toInt, extractCode_append_zeros]

theorem decodeCelsius_encodeCelsius_of_inRange {x : ℚ} (hx : inRange x) :
    decodeCelsius (encodeCelsius x) = (truncSteps x : ℚ) / 16 := by
  obtain ⟨hlow, hhigh⟩ := truncSteps_bounds_of_inRange hx
  exact decodeCelsius_encodeCelsius_of_code (by omega) hhigh

/-! ## The obligations -/

/-- Settles O9: ENCODE answers the code, which is `trunc(16 x)` modulo 4096, in bits [15:4]. -/
theorem encodeAnswersTruncatedCode : Obligations.EncodeAnswersTruncatedCode := by
  unfold Obligations.EncodeAnswersTruncatedCode
  intro x s
  rw [← encodeCelsius_eq_ofInt]
  rfl

/-- Settles O10: DECODE answers the signed code over 16. -/
theorem decodeAnswersSignedCode : Obligations.DecodeAnswersSignedCode := by
  unfold Obligations.DecodeAnswersSignedCode
  intro r s
  rw [← decodeCelsius_eq_toInt]
  rfl

/-- Settles O11: the answer is that of the range check, whose bounds are exact and inclusive. -/
theorem rangeCheckIsExactAndInclusive : Obligations.RangeCheckIsExactAndInclusive := by
  unfold Obligations.RangeCheckIsExactAndInclusive
  intro x s
  have hexec : exec (.rangeCheck x) s = .next (onlyResponse (rangeCheck x) none s) := rfl
  have hmax : (127.9375 : ℚ) = 2047 / 16 := by norm_num
  rw [hexec, hmax]
  refine ⟨fun hin => ?_, fun hout => ?_⟩
  · rw [(rangeCheck_ok_iff x).mpr hin]
  · rw [(rangeCheck_out_iff x).mpr hout]

/-- Settles O15: inside the range the truncated steps are a signed code, so they come back as they are. -/
theorem roundTripTruncatesTowardZero : Obligations.RoundTripTruncatesTowardZero := by
  unfold Obligations.RoundTripTruncatesTowardZero
  intro x hx
  rw [decodeCelsius_encodeCelsius_of_inRange hx]
  exact ⟨rfl, abs_sub_truncSteps_lt x, abs_truncSteps_le x⟩

/-- Settles O16: a decoded value is a whole number of steps, and its code is the one decoded. -/
theorem roundTripClearsReservedBits : Obligations.RoundTripClearsReservedBits := by
  unfold Obligations.RoundTripClearsReservedBits
  exact encodeCelsius_decodeCelsius

/-- Settles O17: strictly between the bounds the truncated steps are a signed code; and a value less than one step from some
signed code lies strictly between them. -/
theorem roundTripBoundHoldsExactly : Obligations.RoundTripBoundHoldsExactly := by
  unfold Obligations.RoundTripBoundHoldsExactly
  intro x
  refine ⟨fun hnear => ?_, fun ⟨hlow, hhigh⟩ => ?_⟩
  · obtain ⟨hlow, hhigh⟩ := decodeCelsius_bounds (encodeCelsius x)
    obtain ⟨hbelow, habove⟩ := abs_lt.mp hnear
    constructor <;> linarith
  · have hcodeLow : -2048 ≤ truncSteps x := le_truncSteps (by decide) (by norm_num; linarith)
    have hcodeHigh : truncSteps x ≤ 2047 := truncSteps_le (by decide) (by norm_num; linarith)
    rw [decodeCelsius_encodeCelsius_of_code hcodeLow hcodeHigh]
    exact abs_sub_truncSteps_lt x

/-- Settles O18: the truncated steps of a value in range are a listed code, which decodes into the range; and a listed code is
that of the value it stands for. -/
theorem rangeCheckedValuesAreTheListedOnes : Obligations.RangeCheckedValuesAreTheListedOnes := by
  unfold Obligations.RangeCheckedValuesAreTheListedOnes
  constructor
  · intro x hok
    have hx : inRange x := (rangeCheck_ok_iff x).mp hok
    obtain ⟨hlow, hhigh⟩ := truncSteps_bounds_of_inRange hx
    have hlow' : (-1200 : ℚ) ≤ truncSteps x := by exact_mod_cast hlow
    have hhigh' : (truncSteps x : ℚ) ≤ 2047 := by exact_mod_cast hhigh
    refine ⟨encodeCelsius_eq_ofInt x, hlow, hhigh, ?_⟩
    rw [decodeCelsius_encodeCelsius_of_inRange hx]
    constructor <;> linarith
  · intro k hlow hhigh
    have hlow' : (-1200 : ℚ) ≤ k := by exact_mod_cast hlow
    have hhigh' : (k : ℚ) ≤ 2047 := by exact_mod_cast hhigh
    refine ⟨k / 16, (rangeCheck_ok_iff _).mpr ⟨by linarith, by linarith⟩, ?_⟩
    rw [encodeCelsius_eq_ofInt, truncSteps_intCast_div]

/-- Settles O20: both negations are negation modulo 4096. -/
theorem twelveBitNegation : Obligations.TwelveBitNegation := by
  unfold Obligations.TwelveBitNegation
  intro m
  simp only [neg12_eq, inv12_eq, BitVec.toNat_neg, neg_neg, and_true]

end Sys2Proof.Proofs
end

section
/-!
PROOFS. Field updates (R91, R92, R123, R124), the device behind the bus (R58, R59), and the environment that answers.
-/

namespace Sys2Proof.Proofs

open Sys2Proof.Machine Sys2Proof.Spec

/-! ## Masked writes and fields -/

theorem maskedWrite_getLsbD_of_clear (cur newv : Word) {mask : Word} {n : Nat} (hn : n < 16)
    (hclear : mask.getLsbD n = false) :
    (maskedWrite cur newv mask).getLsbD n = (cur.getLsbD n || newv.getLsbD n) := by
  rw [maskedWrite, BitVec.getLsbD_or, BitVec.getLsbD_and, BitVec.getLsbD_not, hclear]
  simp [hn]

/-- A code that fits its field is placed inside the field's mask: checked for the codes of each field. -/
theorem placeField_and_not_fieldMask (f : Field) :
    ∀ code < 2 ^ fieldWidth f, placeField f code &&& ~~~fieldMask f = 0#16 := by
  cases f <;> decide

theorem placeField_ushiftRight (f : Field) :
    ∀ code < 2 ^ fieldWidth f, (placeField f code >>> fieldShift f).toNat = code := by
  cases f <;> decide

theorem extractField_updateField {f : Field} {code : Nat} (hcode : code < 2 ^ fieldWidth f) (cur : Word) :
    (extractField f (updateField f code cur)).toNat = code := by
  rw [extractField, updateField, maskedWrite_sets_field cur (placeField_and_not_fieldMask f code hcode)]
  exact placeField_ushiftRight f code hcode

/-- Settles O13: where the mask is clear the masked write is an or. -/
theorem strayBitsAreOnlySet : Obligations.StrayBitsAreOnlySet := by
  unfold Obligations.StrayBitsAreOnlySet
  exact fun cur newv mask n hn hclear => maskedWrite_getLsbD_of_clear cur newv hn hclear

/-- Settles O14: the placed code meets the precondition of the masked write, whose two rules then apply. -/
theorem fieldUpdatePreservesOtherBits : Obligations.FieldUpdatePreservesOtherBits := by
  unfold Obligations.FieldUpdatePreservesOtherBits
  intro f code cur _ _ hcode
  have hplaced := placeField_and_not_fieldMask f code hcode
  exact ⟨hplaced, maskedWrite_preserves_outside cur hplaced, extractField_updateField hcode cur⟩

/-! ## INIT and the environment -/

/-- Settles O21: INIT with a handle and a bus is one update of the handle and an answer. -/
theorem initPopulatesHandle : Obligations.InitPopulatesHandle := by
  unfold Obligations.InitPopulatesHandle
  exact fun b d a s => rfl

/-- Settles O25: a call uses up a scripted reply if there is one, and counts a free answer if there is none. -/
theorem callsAdvanceOnlyTheEnvironment : Obligations.CallsAdvanceOnlyTheEnvironment := by
  unfold Obligations.CallsAdvanceOnlyTheEnvironment
  rintro ⟨handle, dev, device, history, requests, reads, writes, draws, response⟩
  constructor
  · cases reads <;> rfl
  · cases writes <;> rfl

/-! ## Reads of the device -/

section

variable {a : RegAddr} {s : State}

theorem readReply_of_scripted {r : ReadReply} {rest : List ReadReply} (h : s.reads = r :: rest) :
    readReply a s = r := by
  simp only [readReply, h]

theorem readReply_of_unscripted (h : s.reads = []) :
    readReply a s = .returns (Config.freeRead s.handle.bus s.handle.addr a s.draws) := by
  simp only [readReply, h]

theorem readAnswer_of_returns {ans : ReadAnswer} (h : readReply a s = .returns ans) :
    readAnswer a s = some (deviceAnswer s.device s.dev a ans) := by
  simp only [readAnswer, h]

theorem readAnswer_of_error_reply (h : readReply a s = .returns .error) : readAnswer a s = some .error := by
  rw [readAnswer_of_returns h]
  cases s.device <;> rfl

theorem readAnswer_of_oracle {ans : ReadAnswer} (h : readReply a s = .returns ans) (hdev : s.device = .oracle) :
    readAnswer a s = some ans := by
  rw [readAnswer_of_returns h, hdev]
  rfl

/-- Under DEV_STORE an `ok` carries the stored value, whose drawn bits are those of the reply (R58). -/
theorem readAnswer_of_devStore {b0 b1 : Byte} (h : readReply a s = .returns (.ok b0 b1))
    (hdev : s.device = .devStore) : ∃ c0 c1, readAnswer a s = some (.ok c0 c1) ∧
      joinBytes c0 c1 = storeValue s.dev a (joinBytes b0 b1) := by
  refine ⟨_, _, ?_, joinBytes_first_second _⟩
  rw [readAnswer_of_returns h, hdev]
  rfl

/-- DEV_STORE returns a threshold as held, whatever was drawn (R58). -/
theorem readAnswer_threshold {b0 b1 : Byte} (ha : a = .tLow ∨ a = .tHigh)
    (h : readReply a s = .returns (.ok b0 b1)) (hdev : s.device = .devStore) :
    ∃ c0 c1, readAnswer a s = some (.ok c0 c1) ∧ joinBytes c0 c1 = s.dev.get a := by
  obtain ⟨c0, c1, hans, hstore⟩ := readAnswer_of_devStore h hdev
  refine ⟨c0, c1, hans, hstore.trans ?_⟩
  rcases ha with rfl | rfl <;> rfl

end

/-- Settles O23: the reply is the script's or a free one, and the device turns it into the answer. -/
theorem deviceAnswersReads : Obligations.DeviceAnswersReads := by
  unfold Obligations.DeviceAnswersReads
  intro a s
  refine ⟨fun r rest h => readReply_of_scripted h, readReply_of_unscripted, readAnswer_of_error_reply,
    fun b0 b1 h => ⟨readAnswer_of_oracle h, fun hdev => ?_⟩⟩
  obtain ⟨c0, c1, hans, hstore⟩ := readAnswer_of_devStore h hdev
  refine ⟨c0, c1, hans, ?_, ?_, ?_, ?_⟩ <;> rintro rfl <;> exact hstore

/-! ## Writes of the device -/

/-- Settles O24: the register written holds what the reply says, and it is the only one overwritten. -/
theorem writesReachTheDevice : Obligations.WritesReachTheDevice := by
  unfold Obligations.WritesReachTheDevice
  intro a v s
  refine ⟨fun hok => ?_, fun left rest h => ?_, fun b ans hne => ?_⟩
  · rw [afterWrite_dev, DevRegs.get_set_same, writtenValue_of_ok hok]
  · have hreply : writeReply a v s = .error left := by simp only [writeReply, h]
    rw [afterWrite_dev, DevRegs.get_set_same]
    simp only [writeAnswer, writtenValue, hreply, and_self]
  · rw [afterWrite_dev, DevRegs.get_set_other _ _ hne]

/-- Settles O53: neither the reset nor INIT touches the register file, and under DEV_STORE a threshold is answered as held. -/
theorem resetThenInitFindsTheLastWrites : Obligations.ResetThenInitFindsTheLastWrites := by
  unfold Obligations.ResetThenInitFindsTheLastWrites
  intro s q rest b d a hs hq
  have hinit : step (State.blockReset { s with requests := .one q :: rest }) =
      exec (.init .handle (some b) d a) (State.blockReset { s with requests := rest }) := step_of_decoded rfl hq
  exact ⟨_, _, step_of_reset hs, hinit, rfl, rfl, rfl, fun b0 b1 hdev =>
    ⟨fun hread => readAnswer_threshold (.inr rfl) hread hdev, fun hread => readAnswer_threshold (.inl rfl) hread hdev⟩⟩

end Sys2Proof.Proofs
end

section
/-!
PROOFS. The writes of the driver: thresholds (R136 to R139), masked updates of the Configuration register (R158 to R162), their
unreturned calls (R215), and what DEV_STORE answers to a read after them (R58).
-/

namespace Sys2Proof.Proofs

open Sys2Proof.Machine Sys2Proof.Spec Sys2Proof.Safety

/-! ## How a write ends, in the words of the statements -/

theorem afterWrite_respond (a : RegAddr) (v : Word) (ans : WriteAnswer) (c : ResultCode) (s : State) :
    (afterWrite a v ans s).respond c none = writeEnds a v (writtenValue a v s) ans c s := by
  simp [afterWrite, State.record, State.setDev, State.respond, writeEnds, writeEvent, firstByte, secondByte]

theorem afterRead_eq_readHalf (b0 b1 : Byte) (s : State) :
    afterRead .configuration (.ok b0 b1) s = readHalf b0 b1 s := by
  simp [afterRead, State.record, readHalf, readEvent]

section

variable {a : RegAddr} {v : Word} {s : State}

theorem writeReg_done_of_ok (h : writeAnswer a v s = some .ok) :
    writeReg a v done s = .next (writeEnds a v v .ok .ok s) := by
  have hend := afterWrite_respond a v .ok .ok s
  rw [writtenValue_of_ok h] at hend
  rw [writeReg_of_ok _ h, ← hend]
  rfl

theorem writeReg_done_of_error (h : writeAnswer a v s = some .error) :
    writeReg a v done s = .next (demoted (writeEnds a v (writtenValue a v s) .error .busError s)) := by
  rw [writeReg_of_error _ h, ← afterWrite_respond]
  rfl

end

/-! ## The threshold writes -/

section

variable {i : Instr} {a : RegAddr} {h : HandleRef} {x : ℚ}

theorem exec_of_thresholdWrite (hi : thresholdWrite i = some (a, h, x)) (s : State) :
    exec i s = writeCelsius a h x s := by
  cases i <;> cases hi <;> rfl

theorem writeCelsius_ready {s : State} (hready : s.handle.init = true) :
    writeCelsius a .handle x s = writeReg a (BitVec.ofInt 16 (16 * truncSteps x)) done s := by
  rw [writeCelsius, prologue_ready _ hready, encodeCelsius_eq_ofInt]

end

/-- Settles O27: the operation is one write of the encoded value behind the prologue. -/
theorem thresholdWritesSendEncodedValue : Obligations.ThresholdWritesSendEncodedValue := by
  unfold Obligations.ThresholdWritesSendEncodedValue
  intro i a h x s hi
  rw [exec_of_thresholdWrite hi]
  refine ⟨?_, ?_, ?_⟩
  · rintro rfl
    rw [writeCelsius, prologue_null, finish_eq_onlyResponse]
  · rintro rfl huninit
    rw [writeCelsius, prologue_uninitialized _ huninit, finish_eq_onlyResponse]
  · rintro v rfl rfl hready
    rw [writeCelsius_ready hready]
    exact ⟨fun herror => ⟨_, writeReg_done_of_error herror⟩, writeReg_done_of_ok⟩

/-- Settles O28: in range a composite is the write behind its prologue. -/
theorem checkedWritesSendEncodedValue : Obligations.CheckedWritesSendEncodedValue := by
  unfold Obligations.CheckedWritesSendEncodedValue
  rintro i a x s hi hx hready v rfl hok
  rw [exec_of_composite_inRange hi hx, writeCelsius_ready hready, writeReg_done_of_ok hok]

/-- Settles O29: the range check comes before the handle is looked at. -/
theorem outOfRangeHasPriority : Obligations.OutOfRangeHasPriority := by
  unfold Obligations.OutOfRangeHasPriority
  exact fun i a h x s hi hx => exec_of_composite_not_inRange hi hx

/-- Settles O30: in range the range check goes on to the plain write. -/
theorem checkedWriteInRangeIsPlainWrite : Obligations.CheckedWriteInRangeIsPlainWrite := by
  unfold Obligations.CheckedWriteInRangeIsPlainWrite
  exact fun h x s hx => ⟨exec_of_composite_inRange rfl hx, exec_of_composite_inRange rfl hx⟩

/-! ## The masked updates -/

/-- The Configuration register's update of a SET operation: `keep` is the complement of the field's mask and `put` the placed
code (R91, R157). -/
theorem exec_of_fieldWrite {i : Instr} {h : HandleRef} {keep put : Word} (hi : fieldWrite i = some (h, keep, put)) :
    ∃ f code, (∀ s, exec i s = setField f code h s) ∧ ∀ cur, updateField f code cur = (cur &&& keep) ||| put := by
  cases i <;> cases hi
  case setCr e => exact ⟨.cr, e.code, fun s => rfl, by cases e <;> exact fun cur => rfl⟩
  case setHyst e => exact ⟨.hyst, e.code, fun s => rfl, by cases e <;> exact fun cur => rfl⟩
  case setFm e => exact ⟨.fm, e.code, fun s => rfl, by cases e <;> exact fun cur => rfl⟩
  case setTm e => exact ⟨.tm, e.code, fun s => rfl, by cases e <;> exact fun cur => rfl⟩
  case setPol e => exact ⟨.pol, e.code, fun s => rfl, by cases e <;> exact fun cur => rfl⟩

section

variable {f : Field} {code : Nat} {s : State}

theorem setField_of_read_never (hready : s.handle.init = true) (hread : readAnswer .configuration s = none) :
    setField f code .handle s = .fault .collaboratorNeverReturns := by
  rw [setField, prologue_ready _ hready, readReg_of_never _ hread]

theorem setField_of_read_error (hready : s.handle.init = true) (hread : readAnswer .configuration s = some .error) :
    setField f code .handle s = .next (demoted (readEnds .configuration .error .busError none s)) := by
  rw [setField, prologue_ready _ hready, readReg_of_error _ hread, busFailure_afterRead]

theorem setField_of_read_ok {b0 b1 : Byte} (hready : s.handle.init = true)
    (hread : readAnswer .configuration s = some (.ok b0 b1)) :
    setField f code .handle s =
      writeReg .configuration (updateField f code (joinBytes b0 b1)) done (readHalf b0 b1 s) := by
  rw [setField, prologue_ready _ hready, readReg_of_ok _ hread, afterRead_eq_readHalf]

end

/-- Settles O32: the operation is a read of the Configuration register and a write of the updated value, behind the prologue. -/
theorem fieldWritesReadModifyWrite : Obligations.FieldWritesReadModifyWrite := by
  unfold Obligations.FieldWritesReadModifyWrite
  intro i h keep put s hi
  obtain ⟨f, code, hexec, hupdate⟩ := exec_of_fieldWrite hi
  rw [hexec]
  refine ⟨?_, ?_, ?_, ?_⟩
  · rintro rfl
    rw [setField, prologue_null, finish_eq_onlyResponse]
  · rintro rfl huninit
    rw [setField, prologue_uninitialized _ huninit, finish_eq_onlyResponse]
  · rintro rfl hready hread
    exact setField_of_read_error hready hread
  · rintro b0 b1 out rfl hready hread hout
    have hvalue : updateField f code (joinBytes b0 b1) = out := (hupdate _).trans hout.symm
    rw [setField_of_read_ok hready hread, hvalue]
    exact ⟨fun herror => ⟨_, writeReg_done_of_error herror⟩, writeReg_done_of_ok⟩

/-! ## Unreturned calls -/

theorem readAndAnswer_of_never {a : RegAddr} {s : State} (f : Word → Data) (hready : s.handle.init = true)
    (hread : readAnswer a s = none) :
    prologue .handle (readReg a fun v => answer (f v)) s = .fault .collaboratorNeverReturns := by
  rw [prologue_ready _ hready, readReg_of_never _ hread]

/-- Settles O41: each clause is a read or a write on a Ready handle, whose call does not return. -/
theorem unreturnedCallIsStuck : Obligations.UnreturnedCallIsStuck := by
  unfold Obligations.UnreturnedCallIsStuck
  intro s hready
  refine ⟨fun i a hi hread => ?_, fun i meaning hi hread => ?_, fun i keep put hi => ?_, ?_⟩
  · rw [exec_of_temperatureRead hi]
    exact readAndAnswer_of_never _ hready hread
  · obtain ⟨f, map, hexec, _⟩ := exec_of_fieldRead hi
    rw [hexec]
    exact readAndAnswer_of_never (fun v => map (extractField f v)) hready hread
  · obtain ⟨f, code, hexec, hupdate⟩ := exec_of_fieldWrite hi
    rw [hexec]
    refine ⟨setField_of_read_never hready, fun b0 b1 out hread hout hwrite => ?_⟩
    have hvalue : updateField f code (joinBytes b0 b1) = out := (hupdate _).trans hout.symm
    rw [setField_of_read_ok hready hread, hvalue, writeReg_of_never _ hwrite]
  · rintro i a x v hi rfl hwrite
    have hexec : exec i s = writeCelsius a .handle x s := by
      rcases hi with hi | ⟨hi, hx⟩
      · exact exec_of_thresholdWrite hi s
      · exact exec_of_composite_inRange hi hx
    rw [hexec, writeCelsius_ready hready, writeReg_of_never _ hwrite]

end Sys2Proof.Proofs
end

section
/-!
PROOFS. End to end under DEV_STORE (R58): what was written successfully is read back.
-/

namespace Sys2Proof.Proofs

open Sys2Proof.Machine Sys2Proof.Spec Sys2Proof.Safety

/-! ## Thresholds -/

/-- A threshold of a Ready handle's DEV_STORE reads as the value its register holds. -/
theorem readCelsius_of_devStore {a : RegAddr} {t : State} {b0 b1 : Byte} (ha : a = .tLow ∨ a = .tHigh)
    (hready : t.handle.init = true) (hdev : t.device = .devStore) (hread : readReply a t = .returns (.ok b0 b1)) :
    ∃ u, readCelsius a .handle t = .next u ∧
      u.response = some { status := .ok, data := some (.celsius (decodeCelsius (t.dev.get a))) } := by
  obtain ⟨c0, c1, hans, hheld⟩ := readAnswer_threshold ha hread hdev
  refine ⟨_, readAndAnswer_of_ok _ hready hans, ?_⟩
  rw [← hheld]
  rfl

theorem writeCelsius_of_ok {a : RegAddr} {x : ℚ} {s : State} (hready : s.handle.init = true)
    (hwrite : writeAnswer a (encodeCelsius x) s = some .ok) :
    ∃ t, writeCelsius a .handle x s = .next t ∧ t.handle = s.handle ∧ t.device = s.device ∧
      t.dev.get a = encodeCelsius x := by
  refine ⟨(afterWrite a (encodeCelsius x) .ok s).respond .ok none, ?_, by simp, by simp, ?_⟩
  · rw [writeCelsius, prologue_ready _ hready, writeReg_of_ok _ hwrite]
    rfl
  · simp [writtenValue_of_ok hwrite]

/-- Settles O47: the register holds the encoded value, and decoding it gives the truncation back. -/
theorem storedThresholdReadsBack : Obligations.StoredThresholdReadsBack := by
  unfold Obligations.StoredThresholdReadsBack
  intro a set get x s hpair hdev hready hx hwrite
  obtain ⟨ha, hset, hget⟩ : (a = .tLow ∨ a = .tHigh) ∧ exec set s = writeCelsius a .handle x s ∧
      ∀ t, exec get t = readCelsius a .handle t := by
    rcases hpair with ⟨rfl, rfl, rfl⟩ | ⟨rfl, rfl, rfl⟩
    · exact ⟨.inr rfl, rfl, fun _ => rfl⟩
    · exact ⟨.inl rfl, rfl, fun _ => rfl⟩
  obtain ⟨t, ht, hhandle, hdevice, hheld⟩ := writeCelsius_of_ok hready hwrite
  refine ⟨t, hset.trans ht, fun b0 b1 hread => ?_⟩
  rw [hget, ← decodeCelsius_encodeCelsius_of_inRange hx, ← hheld]
  exact readCelsius_of_devStore ha (hhandle ▸ hready) (hdevice.trans hdev) hread

/-! ## Fields -/

/-- The read/write fields lie among the bits that DEV_STORE returns as held, and not among those it draws (R28, R58). -/
theorem extractField_storeValue {f : Field} (hfh : f ≠ .fh) (hfl : f ≠ .fl) (dev : DevRegs) (d : Word) :
    extractField f (storeValue dev .configuration d) = extractField f dev.configuration := by
  have hheld : rwMask &&& fieldMask f = fieldMask f := by
    cases f with
    | fh => exact absurd rfl hfh
    | fl => exact absurd rfl hfl
    | _ => decide
  have hnotDrawn : drawnMask &&& fieldMask f = 0#16 := by
    cases f with
    | fh => exact absurd rfl hfh
    | fl => exact absurd rfl hfl
    | _ => decide
  simp only [extractField, storeValue]
  rw [BitVec.and_or_distrib_right, BitVec.and_assoc, BitVec.and_assoc, hheld, hnotDrawn, BitVec.and_zero,
    BitVec.or_zero]

theorem getField_of_devStore {f : Field} (hfh : f ≠ .fh) (hfl : f ≠ .fl) (map : Word → Data) {t : State}
    {b0 b1 : Byte} (hready : t.handle.init = true) (hdev : t.device = .devStore)
    (hread : readReply .configuration t = .returns (.ok b0 b1)) :
    ∃ u, getField f map .handle t = .next u ∧
      u.response = some { status := .ok, data := some (map (extractField f t.dev.configuration)) } := by
  obtain ⟨c0, c1, hans, hstore⟩ := readAnswer_of_devStore hread hdev
  refine ⟨_, readAndAnswer_of_ok (fun v => map (extractField f v)) hready hans, ?_⟩
  rw [hstore, ← extractField_storeValue hfh hfl t.dev (joinBytes b0 b1)]
  rfl

/-- A masked update that answers Ok has passed its prologue and both of its calls, so the register holds the updated value. -/
theorem held_of_setField_ok {f : Field} {code : Nat} {s t : State} (ht : setField f code .handle s = .next t)
    (hresp : t.response = some { status := .ok, data := none }) :
    t.handle.init = true ∧ t.device = s.device ∧ ∃ cur, t.dev.configuration = updateField f code cur := by
  rcases prologue_cases .handle (readReg .configuration fun cur =>
      writeReg .configuration (updateField f code cur) done) s with ⟨hnull, _⟩ | ⟨_, _, e⟩ | ⟨_, hready, e⟩
  · cases hnull
  · rw [setField, e] at ht
    cases ht
    cases hresp
  rcases hread : readAnswer .configuration s with _ | ⟨b0, b1⟩ | _
  · rw [setField_of_read_never hready hread] at ht
    cases ht
  · rw [setField_of_read_ok hready hread, ← afterRead_eq_readHalf] at ht
    rcases writeReg_done_next ht with ⟨_, rfl⟩ | ⟨hwrite, rfl⟩
    · cases hresp
    · refine ⟨by simpa using hready, by simp, joinBytes b0 b1, ?_⟩
      simp [writtenValue_of_ok hwrite, DevRegs.set]
  · rw [setField_of_read_error hready hread] at ht
    cases ht
    cases hresp

/-! A code of R83 fits its field, and a field value with that code maps to its member. -/

theorem convRate_code_lt (e : ConvRate) : e.code < 2 ^ fieldWidth .cr := by cases e <;> decide

theorem mapConvRate_of_code {e : ConvRate} {v : Word} (h : v.toNat = e.code) : mapConvRate v = e := by
  rw [mapConvRate, h]
  cases e <;> rfl

theorem hysteresis_code_lt (e : Hysteresis) : e.code < 2 ^ fieldWidth .hyst := by cases e <;> decide

theorem mapHysteresis_of_code {e : Hysteresis} {v : Word} (h : v.toNat = e.code) : mapHysteresis v = e := by
  rw [mapHysteresis, h]
  cases e <;> rfl

theorem funcMode_code_lt (e : FuncMode) : e.code < 2 ^ fieldWidth .fm := by cases e <;> decide

theorem mapFuncMode_of_code {e : FuncMode} {v : Word} (h : v.toNat = e.code) : mapFuncMode v = e := by
  rw [mapFuncMode, h]
  cases e <;> rfl

theorem thermMode_code_lt (e : ThermMode) : e.code < 2 ^ fieldWidth .tm := by cases e <;> decide

theorem mapThermMode_of_code {e : ThermMode} {v : Word} (h : v.toNat = e.code) : mapThermMode v = e := by
  rw [mapThermMode, h]
  cases e <;> rfl

theorem polarity_code_lt (e : Polarity) : e.code < 2 ^ fieldWidth .pol := by cases e <;> decide

theorem mapPolarity_of_code {e : Polarity} {v : Word} (h : v.toNat = e.code) : mapPolarity v = e := by
  rw [mapPolarity, h]
  cases e <;> rfl

/-- A SET operation with the handle, and the GET of its field: the code set is one that the GET maps to the member. -/
structure SetThenGet (set get : Instr) (d : Data) (f : Field) (code : Nat) (map : Word → Data) : Prop where
  fh : f ≠ .fh
  fl : f ≠ .fl
  fits : code < 2 ^ fieldWidth f
  maps : ∀ v : Word, v.toNat = code → map v = d
  set_eq : ∀ s, exec set s = setField f code .handle s
  get_eq : ∀ s, exec get s = getField f map .handle s

theorem exists_setThenGet {set get : Instr} {d : Data} (hpair : setThenGet set = some (get, d)) :
    ∃ f code map, SetThenGet set get d f code map := by
  cases set with
  | setCr h e =>
    cases h <;> cases hpair
    exact ⟨.cr, e.code, fun v => .convRate (mapConvRate v), by decide, by decide, convRate_code_lt e,
      fun v hv => congrArg _ (mapConvRate_of_code hv), fun _ => rfl, fun _ => rfl⟩
  | setHyst h e =>
    cases h <;> cases hpair
    exact ⟨.hyst, e.code, fun v => .hysteresis (mapHysteresis v), by decide, by decide, hysteresis_code_lt e,
      fun v hv => congrArg _ (mapHysteresis_of_code hv), fun _ => rfl, fun _ => rfl⟩
  | setFm h e =>
    cases h <;> cases hpair
    exact ⟨.fm, e.code, fun v => .funcMode (mapFuncMode v), by decide, by decide, funcMode_code_lt e,
      fun v hv => congrArg _ (mapFuncMode_of_code hv), fun _ => rfl, fun _ => rfl⟩
  | setTm h e =>
    cases h <;> cases hpair
    exact ⟨.tm, e.code, fun v => .thermMode (mapThermMode v), by decide, by decide, thermMode_code_lt e,
      fun v hv => congrArg _ (mapThermMode_of_code hv), fun _ => rfl, fun _ => rfl⟩
  | setPol h e =>
    cases h <;> cases hpair
    exact ⟨.pol, e.code, fun v => .polarity (mapPolarity v), by decide, by decide, polarity_code_lt e,
      fun v hv => congrArg _ (mapPolarity_of_code hv), fun _ => rfl, fun _ => rfl⟩
  | _ => cases hpair

/-- Settles O48: the register holds the updated value, of which DEV_STORE returns the field as held. -/
theorem storedFieldReadsBack : Obligations.StoredFieldReadsBack := by
  unfold Obligations.StoredFieldReadsBack
  intro set get d s t hpair hdev ht hresp b0 b1 hread
  obtain ⟨f, code, map, hset⟩ := exists_setThenGet hpair
  rw [hset.set_eq] at ht
  obtain ⟨hready, hdevice, cur, hheld⟩ := held_of_setField_ok ht hresp
  rw [hset.get_eq, ← hset.maps _ (extractField_updateField hset.fits cur), ← hheld]
  exact getField_of_devStore hset.fh hset.fl map hready (hdevice.trans hdev) hread

end Sys2Proof.Proofs
end
